-- ==== Sys2Proof/Word.lean ====
section
/-!
DEFINITION. The word types of CANQ (spec/00_scope.md R6: `W` = 32, R10).
-/

namespace Sys2Proof

/-- One register or data word: 32 bits (R6, `W`). -/
abbrev Word := BitVec 32

/-- One byte of slot RAM or of a payload. -/
abbrev Byte := BitVec 8

end Sys2Proof
end

