-- ==== Sys2Proof/Syntax.lean ====
section
/-!
DEFINITION. The commands and the two engine handlers of CANQ: one constructor per row of spec/opcode_table.json
(spec/30_encoding.md R73). A command's operands are in `ARG0..ARG7` (R85), so a constructor carries only the
fields of the command word.
-/

namespace Sys2Proof

/-- The `RING` field: which ring of the device an `RB_*` command names (R70). -/
inductive RingSel where
  | rx
  | tx
  deriving DecidableEq, Repr

/-- One row of the opcode table. `d` is the `DEV` field, `k` the absolute bank of the `BANK` field. The last two are
the engine handlers, which no command word selects (R71, format `IRQ`). -/
inductive Instr where
  | rbIsEmpty (d : Nat) (ring : RingSel)
  | rbIsFull (d : Nat) (ring : RingSel)
  | rbCount (d : Nat) (ring : RingSel)
  | rbPush (d : Nat) (ring : RingSel)
  | rbPeek (d : Nat) (ring : RingSel)
  | rbPop (d : Nat) (ring : RingSel)
  | btSolve
  | fltConfigure (d k : Nat)
  | fltMask32Std (d k : Nat)
  | fltMask32Ext (d k : Nat)
  | fltList32Std (d k : Nat)
  | fltList32Ext (d k : Nat)
  | fltMask16 (d k : Nat)
  | fltList16 (d k : Nat)
  | fltAcceptAll (d : Nat)
  | fltEnable (d k : Nat)
  | fltDisable (d k : Nat)
  | fltClearAll (d : Nat)
  | fltRead (d k : Nat)
  | devOpen (d : Nat)
  | devBegin (d : Nat)
  | setBaudrate (d : Nat)
  | devClose (d : Nat)
  | write (d : Nat)
  | availableForWrite (d : Nat)
  | available (d : Nat)
  | peek (d : Nat)
  | read (d : Nat)
  | getError (d : Nat)
  | irqRx (d : Nat)
  | irqTx (d : Nat)
  deriving DecidableEq, Repr

end Sys2Proof
end

