-- ==== Sys2Proof/WellFormed.lean ====
section
/-!
DEFINITION. Which instructions a command word can hold (spec/30_encoding.md R70): the `DEV` field has four bits and
the `BANK` field five.
-/

namespace Sys2Proof

/-- The device id fits the four bits of `DEV`. -/
def devFits (d : Nat) : Bool := decide (d < 16)

/-- The bank index fits the five bits of `BANK`. -/
def bankFits (k : Nat) : Bool := decide (k < 32)

/-- Every field of the instruction fits its field of the command word. -/
def Instr.wf : Instr → Bool
  | .rbIsEmpty d _ => devFits d
  | .rbIsFull d _ => devFits d
  | .rbCount d _ => devFits d
  | .rbPush d _ => devFits d
  | .rbPeek d _ => devFits d
  | .rbPop d _ => devFits d
  | .btSolve => true
  | .fltConfigure d k => devFits d && bankFits k
  | .fltMask32Std d k => devFits d && bankFits k
  | .fltMask32Ext d k => devFits d && bankFits k
  | .fltList32Std d k => devFits d && bankFits k
  | .fltList32Ext d k => devFits d && bankFits k
  | .fltMask16 d k => devFits d && bankFits k
  | .fltList16 d k => devFits d && bankFits k
  | .fltAcceptAll d => devFits d
  | .fltEnable d k => devFits d && bankFits k
  | .fltDisable d k => devFits d && bankFits k
  | .fltClearAll d => devFits d
  | .fltRead d k => devFits d && bankFits k
  | .devOpen d => devFits d
  | .devBegin d => devFits d
  | .setBaudrate d => devFits d
  | .devClose d => devFits d
  | .write d => devFits d
  | .availableForWrite d => devFits d
  | .available d => devFits d
  | .peek d => devFits d
  | .read d => devFits d
  | .getError d => devFits d
  | .irqRx d => devFits d
  | .irqTx d => devFits d

end Sys2Proof
end

