-- ==== Sys2Proof/Decode.lean ====
section
/-!
DEFINITION. The command word (spec/30_encoding.md R70 to R73, R84): fields, formats, the decoder and the encoder.
The decoder is total on any 32-bit word and rejects by name; a rejected word ends with `ERR_ILLEGAL` (R72).
-/

namespace Sys2Proof

/-- Why a word selects no row (R72): both cases end with `ERR_ILLEGAL`. -/
inductive Reject where
  /-- `OPC` is in no row of R73 -/
  | noRow
  /-- a reserved bit, or a field the row's format does not use, is not 0 -/
  | unusedField
  deriving DecidableEq, Repr

/-- The formats of R71. -/
inductive Format where
  | cmdN
  | cmdD
  | cmdR
  | cmdB
  | irq
  deriving DecidableEq, Repr

/-- Bits `lo + len - 1 .. lo` of a word, as a natural (R10, `v[hi:lo]`). -/
def field (w : Word) (lo len : Nat) : Nat := (w.extractLsb' lo len).toNat

/-- `OPC`, bits 7:0 (R70). -/
def opcField (w : Word) : Nat := field w 0 8

/-- `DEV`, bits 11:8. -/
def devField (w : Word) : Nat := field w 8 4

/-- `RING`, bit 12: 0 is the receive ring, 1 the transmit ring. -/
def ringField (w : Word) : RingSel := if field w 12 1 = 0 then .rx else .tx

/-- `BANK`, bits 20:16. -/
def bankField (w : Word) : Nat := field w 16 5

/-- The bits of a word that must equal the row's match (R71). -/
def Format.mask : Format → Word
  | .cmdN => 0xFFFFFFFF
  | .cmdD => 0xFFFFF0FF
  | .cmdR => 0xFFFFE0FF
  | .cmdB => 0xFFE0F0FF
  | .irq => 0xFFFFFFFF

/-- The format of each row of R73. -/
def Instr.format : Instr → Format
  | .rbIsEmpty _ _ => .cmdR
  | .rbIsFull _ _ => .cmdR
  | .rbCount _ _ => .cmdR
  | .rbPush _ _ => .cmdR
  | .rbPeek _ _ => .cmdR
  | .rbPop _ _ => .cmdR
  | .btSolve => .cmdN
  | .fltConfigure _ _ => .cmdB
  | .fltMask32Std _ _ => .cmdB
  | .fltMask32Ext _ _ => .cmdB
  | .fltList32Std _ _ => .cmdB
  | .fltList32Ext _ _ => .cmdB
  | .fltMask16 _ _ => .cmdB
  | .fltList16 _ _ => .cmdB
  | .fltAcceptAll _ => .cmdD
  | .fltEnable _ _ => .cmdB
  | .fltDisable _ _ => .cmdB
  | .fltClearAll _ => .cmdD
  | .fltRead _ _ => .cmdB
  | .devOpen _ => .cmdD
  | .devBegin _ => .cmdD
  | .setBaudrate _ => .cmdD
  | .devClose _ => .cmdD
  | .write _ => .cmdD
  | .availableForWrite _ => .cmdD
  | .available _ => .cmdD
  | .peek _ => .cmdD
  | .read _ => .cmdD
  | .getError _ => .cmdD
  | .irqRx _ => .irq
  | .irqTx _ => .irq

/-- The row of R73 with the given `OPC` and format ≠ `IRQ`, its fields bound, or none. -/
def rowOf (opc d : Nat) (ring : RingSel) (k : Nat) : Option Instr :=
  match opc with
  | 0x01 => some (.rbIsEmpty d ring)
  | 0x02 => some (.rbIsFull d ring)
  | 0x03 => some (.rbCount d ring)
  | 0x04 => some (.rbPush d ring)
  | 0x05 => some (.rbPeek d ring)
  | 0x06 => some (.rbPop d ring)
  | 0x10 => some .btSolve
  | 0x20 => some (.fltConfigure d k)
  | 0x21 => some (.fltMask32Std d k)
  | 0x22 => some (.fltMask32Ext d k)
  | 0x23 => some (.fltList32Std d k)
  | 0x24 => some (.fltList32Ext d k)
  | 0x25 => some (.fltMask16 d k)
  | 0x26 => some (.fltList16 d k)
  | 0x27 => some (.fltAcceptAll d)
  | 0x28 => some (.fltEnable d k)
  | 0x29 => some (.fltDisable d k)
  | 0x2A => some (.fltClearAll d)
  | 0x2B => some (.fltRead d k)
  | 0x30 => some (.devOpen d)
  | 0x31 => some (.devBegin d)
  | 0x32 => some (.setBaudrate d)
  | 0x33 => some (.devClose d)
  | 0x34 => some (.write d)
  | 0x35 => some (.availableForWrite d)
  | 0x36 => some (.available d)
  | 0x37 => some (.peek d)
  | 0x38 => some (.read d)
  | 0x39 => some (.getError d)
  | _ => none

/-- The decoder of R72, up to its check of the device id, which needs the configuration
(`Machine.onDevice`). -/
def decode (w : Word) : Except Reject Instr :=
  match rowOf (opcField w) (devField w) (ringField w) (bankField w) with
  | none => .error .noRow
  | some i => if w &&& i.format.mask = BitVec.ofNat 32 (opcField w) then .ok i else .error .unusedField

/-- The fields of R70 put together: `OPC | DEV << 8 | RING << 12 | BANK << 16`. -/
def commandWord (opc d : Nat) (ring : RingSel) (k : Nat) : Word :=
  BitVec.ofNat 32 opc ||| BitVec.ofNat 32 d <<< 8 ||| BitVec.ofNat 32 (match ring with | .rx => 0 | .tx => 1) <<< 12 |||
    BitVec.ofNat 32 k <<< 16

/-- The command word of an instruction (R70, R73); the engine handlers have none (R71). -/
def encode : Instr → Option Word
  | .rbIsEmpty d r => some (commandWord 0x01 d r 0)
  | .rbIsFull d r => some (commandWord 0x02 d r 0)
  | .rbCount d r => some (commandWord 0x03 d r 0)
  | .rbPush d r => some (commandWord 0x04 d r 0)
  | .rbPeek d r => some (commandWord 0x05 d r 0)
  | .rbPop d r => some (commandWord 0x06 d r 0)
  | .btSolve => some (commandWord 0x10 0 .rx 0)
  | .fltConfigure d k => some (commandWord 0x20 d .rx k)
  | .fltMask32Std d k => some (commandWord 0x21 d .rx k)
  | .fltMask32Ext d k => some (commandWord 0x22 d .rx k)
  | .fltList32Std d k => some (commandWord 0x23 d .rx k)
  | .fltList32Ext d k => some (commandWord 0x24 d .rx k)
  | .fltMask16 d k => some (commandWord 0x25 d .rx k)
  | .fltList16 d k => some (commandWord 0x26 d .rx k)
  | .fltAcceptAll d => some (commandWord 0x27 d .rx 0)
  | .fltEnable d k => some (commandWord 0x28 d .rx k)
  | .fltDisable d k => some (commandWord 0x29 d .rx k)
  | .fltClearAll d => some (commandWord 0x2A d .rx 0)
  | .fltRead d k => some (commandWord 0x2B d .rx k)
  | .devOpen d => some (commandWord 0x30 d .rx 0)
  | .devBegin d => some (commandWord 0x31 d .rx 0)
  | .setBaudrate d => some (commandWord 0x32 d .rx 0)
  | .devClose d => some (commandWord 0x33 d .rx 0)
  | .write d => some (commandWord 0x34 d .rx 0)
  | .availableForWrite d => some (commandWord 0x35 d .rx 0)
  | .available d => some (commandWord 0x36 d .rx 0)
  | .peek d => some (commandWord 0x37 d .rx 0)
  | .read d => some (commandWord 0x38 d .rx 0)
  | .getError d => some (commandWord 0x39 d .rx 0)
  | .irqRx _ => none
  | .irqTx _ => none

/-- The word of `nbits` bits `w` as it stands in `CMD`: a command word is one 32-bit register, so it has no byte
order of its own (R85). -/
def tableWord (nbits w : Nat) : Word := BitVec.ofNat 32 (w % 2 ^ nbits)

/-- What the decoder reads from a word of the opcode table. -/
def decodeTableWord (nbits w : Nat) : Option Instr :=
  match decode (tableWord nbits w) with
  | .ok i => some i
  | .error _ => none

end Sys2Proof
end

