-- ==== Sys2Proof/Config.lean ====
section
/-!
DEFINITION. What an implementation fixes (spec/00_scope.md R6, R7), the reference configuration of R9, and the
free values of the spec's draws (R11). Every OPEN parameter is a field of `Config`; a state holds the
configuration it runs under, so that a statement over every state is a statement over every configuration
(notes/assumptions/1.md).
-/

namespace Sys2Proof

/-- The role of a device on its filter array (R7). -/
inductive Role where
  | primary
  | secondary
  | standalone
  deriving DecidableEq, Repr

/-- The constant descriptor `DESC[d]` of one device (R7). -/
structure Desc where
  /-- whether the device exists -/
  present : Bool
  /-- physical block index `b` -/
  block : Nat
  /-- pin-remap code -/
  remap : Nat
  /-- filter array index `a` -/
  farray : Nat
  role : Role
  /-- absolute index of the first owned bank -/
  firstBank : Nat
  /-- absolute index of the last owned bank -/
  maxBank : Nat
  /-- peripheral clock in Hz -/
  pclk : Nat
  /-- interrupt priority of the RX handler; a lower number is more urgent -/
  prioRx : Nat
  prioTx : Nat
  /-- transceiver pin id, `none` where there is none -/
  trxPin : Option Nat
  /-- the pin level that wakes the transceiver -/
  trxAwake : Bool
  /-- base address of the physical controller's own registers: handed to the primitives, never read (R7) -/
  base : Nat
  deriving DecidableEq, Repr

/-- What a device id outside the descriptor table stands for: a device that is not present. -/
def Desc.absent : Desc :=
  { present := false, block := 0, remap := 0, farray := 0, role := .standalone, firstBank := 0, maxBank := 0,
    pclk := 0, prioRx := 0, prioTx := 0, trxPin := none, trxAwake := false, base := 0 }

/-- `NUM_BANKS[a]` and `SPLIT[a]` of one filter array (R6). -/
structure ArrayParams where
  numBanks : Nat
  split : Nat
  deriving DecidableEq, Repr

/-- The parameters of R6, R7 and 20_memory.md R59 that a model takes as an argument.
`NUM_DEV` is the length of `desc`, `NUM_FARRAYS` the length of `farrays`. -/
structure Config where
  numBlocks : Nat
  farrays : List ArrayParams
  mboxCount : Nat
  rxFifoDepth : Nat
  hwTxMayFail : Bool
  /-- `CANQ_BASE`, the address of the command window -/
  canqBase : Nat
  multicore : Bool
  desc : List Desc
  /-- platform line numbers `IRQN_RX[d]` and `IRQN_TX[d]` (R59): no rule reads them -/
  irqnRx : List Nat
  irqnTx : List Nat
  deriving DecidableEq, Repr

/-- `NUM_DEV`. -/
def Config.numDev (c : Config) : Nat := c.desc.length

/-- `NUM_FARRAYS`. -/
def Config.numFarrays (c : Config) : Nat := c.farrays.length

/-- `NUM_BANKS[a]`; 0 where there is no such array. -/
def Config.numBanks (c : Config) (a : Nat) : Nat := (c.farrays.getD a ⟨0, 0⟩).numBanks

/-- `SPLIT[a]`. -/
def Config.split (c : Config) (a : Nat) : Nat := (c.farrays.getD a ⟨0, 0⟩).split

/-- `DESC[d]`. -/
def Config.descOf (c : Config) (d : Nat) : Desc := c.desc.getD d Desc.absent

/-- `CAP_SET_RX`, the legal receive-ring capacities (R6). -/
def Config.capSetRx : List Nat := [4, 8, 16, 32, 64, 128, 256, 512]

/-- `CAP_SET_TX` (R6). -/
def Config.capSetTx : List Nat := 0 :: Config.capSetRx

/-- `BAUD_MAX` (R6). -/
def Config.baudMax : Nat := 1000000

/-- A row of R9's table. `trxAwake` is 0 in the one row that gives it and means nothing in the two rows with no pin;
`base` is in no row and is never read. -/
def Desc.reference (block remap : Nat) (role : Role) (firstBank maxBank prioRx prioTx : Nat) (trxPin : Option Nat) :
    Desc :=
  { present := true, block := block, remap := remap, farray := 0, role := role, firstBank := firstBank,
    maxBank := maxBank, pclk := 72000000, prioRx := prioRx, prioTx := prioTx, trxPin := trxPin, trxAwake := false,
    base := 0 }

/-- The reference configuration RC (R9). -/
def Config.reference : Config :=
  { numBlocks := 2
    farrays := [⟨28, 14⟩]
    mboxCount := 3
    rxFifoDepth := 3
    hwTxMayFail := false
    canqBase := 0x40006000
    multicore := false
    desc :=
      [Desc.reference 0 0 .primary 0 13 0 1 none,
       Desc.reference 0 1 .primary 0 13 0 1 none,
       Desc.reference 1 0 .secondary 14 27 2 3 (some 5)]
    irqnRx := [0, 0, 0]
    irqnTx := [0, 0, 0] }

/-- The environment's answer to draw number `n` (R11, `draw v : T`): no value of it can be computed or proved
(notes/assumptions/2.md). -/
opaque Config.freeWord : Nat → Word

/-- The environment's choice of the next agent where the schedule in the state says nothing (20_memory.md R60,
"chosen freely among those enabled"): uninterpreted, like `Config.freeWord` (notes/assumptions/3.md). -/
opaque Config.freeChoice : Nat → Nat

end Sys2Proof
end

