-- ==== Sys2Proof/Machine/State.lean ====
section
/-!
DEFINITION. The state of CANQ (spec/10_state.md), as plain data, its reset value (R41), and the reasons a step stops.
`BUSY` (`STATUS[8]`), `ENMASK[d]`, `TRX[d]`, `IRQ_RX[d]` and `IRQ_TX[d]` are views (R30, R31, R33, R34) and are defined
over this state in Flags.lean, Filter.lean, Ops.lean and Schedule.lean.
-/

namespace Sys2Proof
namespace Machine

/-- A step with no meaning. -/
inductive Fault where
  /-- Raised by the meanings: the position in `CUR` or `ACTIVE` is none of the instruction's steps. No run reaches it
  (`State.Inv` of Safety.lean rules it out). Safe (notes/assumptions/12.md). -/
  | noSuchStep
  /-- Raised by the host port (Schedule.lean): the access lies outside the command window, so it is no access to CANQ
  (R50). Safe (notes/assumptions/12.md). -/
  | outsideWindow
  deriving DecidableEq, Repr

/-- Why a step has no meaning in the model. -/
inductive Refusal where
  /-- Raised by `exec` for a row that has no meaning in the model yet. Safe. -/
  | notModelled (mnemonic : String)
  /-- Raised by `step`: the configuration breaks R6 or R8, or asks for more than one core, so it has no run (R268,
  R67); or a descriptor is outside R7's ranges (notes/assumptions/14.md). Safe. -/
  | badConfiguration
  deriving DecidableEq, Repr

/-- The ID-type tag of a frame (R13). -/
inductive IdType where
  | std
  | ext
  deriving DecidableEq, Repr

/-- The frame-type tag of a frame (R13). -/
inductive FrameKind where
  | data
  | remote
  deriving DecidableEq, Repr

/-- The fixed 8-byte payload array of a frame (R13). -/
structure Payload where
  b0 : Byte
  b1 : Byte
  b2 : Byte
  b3 : Byte
  b4 : Byte
  b5 : Byte
  b6 : Byte
  b7 : Byte
  deriving DecidableEq, Repr

/-- A frame as a value (R13). `dlc` is 0 to 8 in a valid frame. -/
structure Frame where
  id : BitVec 29
  ide : IdType
  rtr : FrameKind
  dlc : BitVec 4
  data : Payload
  deriving DecidableEq, Repr

/-- The register form of a frame: `FW0..FW3` (R75). -/
structure FrameWords where
  fw0 : Word
  fw1 : Word
  fw2 : Word
  fw3 : Word
  deriving DecidableEq, Repr

/-- Eight registers of the command port: `ARG0..7` or `RES0..7` (R40). -/
structure Words8 where
  r0 : Word
  r1 : Word
  r2 : Word
  r3 : Word
  r4 : Word
  r5 : Word
  r6 : Word
  r7 : Word
  deriving DecidableEq, Repr

/-- The status codes of R74; no other code is ever written. -/
inductive StatusCode where
  | ok
  | full
  | empty
  | errBaud
  | errClaimed
  | errRange
  | errBank
  | errCap
  | errArg
  | errHw
  | errState
  | errOwner
  | errIllegal
  deriving DecidableEq, Repr

/-- Byte-addressed memory: (address, byte) pairs, addresses strictly rising. An address that is not listed is unwritten
(R25, ⊥): it has no value (notes/assumptions/16.md). -/
abbrev Memory := List Host.Cell

/-- The state of one ring (R25). `slot` is its slot RAM, byte offsets `0 .. 16·CAP-1` (R50). -/
structure Ring where
  cap : Nat
  head : Nat
  tail : Nat
  slot : Memory
  deriving DecidableEq, Repr

/-- A ring by device and side: `RXR[d]` or `TXR[d]`. -/
structure RingRef where
  dev : Nat
  sel : RingSel
  deriving DecidableEq, Repr

/-- `ST[d]` (R23). -/
inductive Life where
  | uninit
  | configured
  | running
  deriving DecidableEq, Repr

/-- The values of `TRX[d]` (R31): not driven, or driven to a level. -/
inductive Trx where
  | z
  | low
  | high
  deriving DecidableEq, Repr

/-- `HW_MODE[b]` (R32). -/
inductive HwMode where
  | reset
  | init
  | normal
  deriving DecidableEq, Repr

/-- The levels CANQ drives on transceiver pins (R31): (pin, level) pairs with pins strictly rising; a pin that is not
listed is not driven, Z. -/
abbrev Pins := List (Nat × Bool)

/-- The state of one device (R23, R25, R27, R28). `TRX[d]` (R31) is the level on its pin: a view, `State.trx`. -/
structure DevState where
  st : Life
  rxIe : Bool
  txIe : Bool
  timing : Word
  baud : Word
  baudValid : Bool
  rxr : Ring
  txr : Ring
  deriving DecidableEq, Repr

/-- The state of one physical block: its registry entry (R24) and its external controller (R32). `mbox` is in load
order and `rxfifo` oldest first. -/
structure BlockState where
  claim : Bool
  owner : Nat
  mbox : List Frame
  rxfifo : List Frame
  hwMode : HwMode
  deriving DecidableEq, Repr

/-- The registers of one filter bank (R29): `FR1`, `FR2`, `FM` (true = list), `FS` (true = 32-bit), `FA`, `FCFG`. -/
structure Bank where
  fr1 : Word
  fr2 : Word
  fm : Bool
  fs : Bool
  fa : Bool
  fcfg : Bool
  deriving DecidableEq, Repr

/-- One filter array: its banks and its write-protect bit `WP[a]` (true = locked). -/
structure FilterArray where
  banks : List Bank
  wp : Bool
  deriving DecidableEq, Repr

/-- The two interrupt kinds of a device (R263). -/
inductive IrqKind where
  | rx
  | tx
  deriving DecidableEq, Repr

/-- An engine handler `(d, k)`: the agent `RXE[d]` or `TXE[d]` (R5). -/
structure Handler where
  dev : Nat
  kind : IrqKind
  deriving DecidableEq, Repr

/-- An agent that can raise a model fault. `BUS[b]` raises none. -/
inductive Agent where
  | app
  | engine (h : Handler)
  deriving DecidableEq, Repr

/-- The primitives whose misuse is `F_INTERNAL` (R265). -/
inductive Primitive where
  | memRead
  | memWrite
  | hwReceive
  | hwTransmit
  deriving DecidableEq, Repr

/-- The model faults of R265 with their `info`. -/
inductive ModelFault where
  /-- `F_UNWRITTEN`: the ring and the byte offset -/
  | unwritten (ring : RingRef) (offset : Nat)
  /-- `F_PORT`: the access address and its width in bits -/
  | port (addr width : Nat)
  /-- `F_INTERNAL`: the primitive -/
  | internal (p : Primitive)
  deriving DecidableEq, Repr

/-- An entry of `FAULTS` (R35) with the agent the fault stopped (notes/assumptions/10.md). -/
structure FaultRecord where
  fault : ModelFault
  agent : Agent
  deriving DecidableEq, Repr

/-- The position of a command's or handler's next atomic step (R34), with the values its earlier steps bound. -/
inductive Pos where
  /-- the first step: decode and the first statement group -/
  | start
  /-- the query step of `RB_IS_EMPTY`, `RB_IS_FULL`, `RB_COUNT` -/
  | query
  /-- the masking step of `PEEK`, `READ` -/
  | mask
  /-- `WRITE`: the test of the TX ring -/
  | testEmpty (f : Frame)
  /-- `WRITE`: the direct send -/
  | direct (f : Frame)
  /-- `WRITE`: the end after a direct send -/
  | directDone
  /-- `WRITE`: the end with no queue and no mailbox -/
  | noQueue
  /-- `ring_push`, first step -/
  | pushCheck (f : Frame)
  /-- `ring_push`, second step: fill slot `h` -/
  | pushFill (h : Nat) (f : Frame)
  /-- `ring_push`, third step: publish -/
  | pushPublish (h : Nat)
  /-- `ring_peek`, first step -/
  | peekCheck
  /-- `ring_peek`, second step: read slot `t` -/
  | peekRead (t : Nat)
  /-- `ring_pop`, first step; `x` is the frame `READ` has peeked -/
  | popCheck (x : Option Frame)
  /-- `ring_pop`, second step -/
  | popAdvance (t : Nat) (x : Option Frame)
  /-- the last step of `RB_PUSH`, `RB_POP`, `WRITE` -/
  | finishBool (ok : Bool)
  /-- the last step of `RB_PEEK`, `PEEK`, `READ` -/
  | finishFrame (x : Option Frame)
  /-- `IRQ_RX` with a full ring: disable and exit -/
  | backPressure
  /-- `IRQ_RX`: take the FIFO head -/
  | receive
  /-- `IRQ_TX`: the test at the top of the loop -/
  | loopTest
  /-- `IRQ_TX`: the transmit attempt -/
  | transmit (f : Frame)
  /-- the last step of a handler -/
  | exit
  deriving DecidableEq, Repr

/-- A handler in progress: an element of `ACTIVE` (R34). -/
structure Running where
  handler : Handler
  pos : Pos
  deriving DecidableEq, Repr

/-- One access of the host program to an address (R52): `width` in bits. -/
structure PortAccess where
  write : Bool
  addr : Nat
  width : Nat
  value : Word
  deriving DecidableEq, Repr

/-- What the host program does next: one access, or the wait of R87, `load STATUS until STATUS[8] = 0`. -/
inductive HostOp where
  | access (a : PortAccess)
  | poll
  deriving DecidableEq, Repr

/-- Which agent takes the next atomic step (R60). -/
inductive Event where
  /-- `APP`: the next step of `CUR`, or the next port access when `CUR` is none -/
  | app
  /-- `APP`: a port access while a command is in progress (R52, R267; notes/assumptions/7.md) -/
  | port
  /-- the entry step of a handler -/
  | enter (h : Handler)
  /-- the next step of an active handler -/
  | resume (h : Handler)
  /-- `BUS[b]`: transmit completion -/
  | complete (b : Nat)
  /-- `BUS[b]`: arrival -/
  | arrive (b : Nat)
  deriving DecidableEq, Repr

/-- The whole state. The fields from `cmd` to `faults` are the spec's; `cfg` is the configuration the run has (R6, R7:
no step writes it); the fields from `host` on are the model's own: what comes from outside CANQ and is not yet
consumed (notes/assumptions/2.md to 5.md, 8.md). -/
structure State where
  cfg : Config
  /-- `CMD` -/
  cmd : Word
  /-- `STATUS[7:0]` -/
  code : StatusCode
  /-- `ARG0..ARG7` -/
  arg : Words8
  /-- `RES0..RES7` -/
  res : Words8
  /-- per device -/
  dev : List DevState
  /-- per physical block -/
  blk : List BlockState
  /-- per filter array -/
  flt : List FilterArray
  /-- the level on each transceiver pin: `TRX[d]` is the one on `DESC[d].trx_pin` (R31; notes/assumptions/13.md) -/
  pins : Pins
  /-- `CUR`: none when no command is in progress; the command itself is the one `CMD` holds
  (notes/assumptions/9.md) -/
  cur : Option Pos
  /-- `ACTIVE`, in order of entry -/
  active : List Running
  /-- `FAULTS`, no repeats -/
  faults : List FaultRecord
  /-- the host program's accesses to come -/
  host : List HostOp
  /-- the value the host's last load returned -/
  readData : Word
  /-- the agents chosen to step next; past its end the choice is `Config.freeChoice` -/
  sched : List Event
  /-- the environment's next answers to draws; past its end an answer is `Config.freeWord` -/
  tape : List Word
  /-- how many draws and free choices were taken -/
  drawn : Nat
  deriving DecidableEq, Repr

/-- A ring that is not allocated: `CAP` = 0 (R25, R101). -/
def Ring.unallocated : Ring := { cap := 0, head := 0, tail := 0, slot := [] }

/-- The reset value of a device's state (R41). -/
def DevState.reset : DevState :=
  { st := .uninit, rxIe := false, txIe := false, timing := 0, baud := 0, baudValid := false,
    rxr := Ring.unallocated, txr := Ring.unallocated }

/-- The reset value of a block's state (R41). `OWNER[b]` is unspecified there: 0 is the model's choice
(notes/assumptions/6.md). -/
def BlockState.reset : BlockState := { claim := false, owner := 0, mbox := [], rxfifo := [], hwMode := .reset }

/-- The reset value of a bank (R29, R41). -/
def Bank.reset : Bank := { fr1 := 0, fr2 := 0, fm := false, fs := false, fa := false, fcfg := false }

/-- Eight zero registers. -/
def Words8.zero : Words8 := ⟨0, 0, 0, 0, 0, 0, 0, 0⟩

/-- The state after the reset event under a configuration (R41, R280). -/
def State.resetOf (c : Config) : State :=
  { cfg := c
    cmd := 0
    code := .ok
    arg := Words8.zero
    res := Words8.zero
    dev := c.desc.map fun _ => DevState.reset
    blk := List.replicate c.numBlocks BlockState.reset
    flt := c.farrays.map fun p => { banks := List.replicate p.numBanks Bank.reset, wp := true }
    pins := []
    cur := none
    active := []
    faults := []
    host := []
    readData := 0
    sched := []
    tape := []
    drawn := 0 }

/-- The machine right after reset, in the reference configuration (R9, R41). -/
def State.reset : State := State.resetOf Config.reference

end Machine
end Sys2Proof
end

