-- ==== Sys2Proof/Machine/Ops.lean ====
section
/-!
DEFINITION. The named operations over the state: registers, per-device and per-block state, slot RAM (spec/20_memory.md
R53), rings (spec/41_ring.md R101 to R108), draws (R11), the external primitives (spec/45_irq.md R250), handler entry
and exit (R231), model faults (R265), and which configurations are admitted (R6, R7, R8, R268).
-/

namespace Sys2Proof

/-- Each parameter is in the range of R6; `MULTICORE` is false (R67); each descriptor's `block` and `farray` name a block
and an array of R6, and its `pclk` is 1 to 2^32-1 (R7; DEDUCED that such a configuration is refused,
notes/assumptions/14.md). -/
def Config.inRange (c : Config) : Bool :=
  (decide (1 ≤ c.numDev) && decide (c.numDev ≤ 16)) && (
  (decide (1 ≤ c.numBlocks) && decide (c.numBlocks ≤ 3)) && (
  (decide (1 ≤ c.numFarrays) && decide (c.numFarrays ≤ 3)) && (
  c.farrays.all (fun a => decide (1 ≤ a.numBanks) && decide (a.numBanks ≤ 32) && decide (a.split ≤ a.numBanks)) && (
  (decide (1 ≤ c.mboxCount) && decide (c.mboxCount ≤ 8)) && (
  (decide (1 ≤ c.rxFifoDepth) && decide (c.rxFifoDepth ≤ 8)) && (
  (decide (c.canqBase % 0x100 = 0) && !c.multicore) &&
  c.desc.all (fun p => decide (p.block < c.numBlocks) && decide (p.farray < c.numFarrays) && decide (1 ≤ p.pclk) &&
    decide (p.pclk < 2 ^ 32))))))))

/-- R8(c), (d): the owned range lies in the array, and a STANDALONE device owns all of it. -/
def Config.rangeOk (c : Config) (p : Desc) : Bool :=
  decide (p.firstBank ≤ p.maxBank) && decide (p.maxBank < c.numBanks p.farray) &&
  (decide (p.role ≠ .standalone) || (decide (p.firstBank = 0) && decide (p.maxBank + 1 = c.numBanks p.farray)))

/-- R8(a), (b), (e), (f) for one ordered pair of devices. -/
def Config.pairOk (c : Config) (p q : Desc) : Bool :=
  -- (a) ranges of devices on different blocks never overlap
  (decide (p.block = q.block) || decide (p.farray ≠ q.farray) || decide (p.maxBank < q.firstBank) ||
    decide (q.maxBank < p.firstBank)) &&
  -- (b) a PRIMARY and a SECONDARY that share an array are parted at its split point
  (decide (p.role ≠ .primary) || decide (q.role ≠ .secondary) || decide (p.farray ≠ q.farray) ||
    (decide (p.firstBank = 0) && decide (p.maxBank + 1 = c.split p.farray) &&
     decide (q.firstBank = c.split p.farray) && decide (q.maxBank + 1 = c.numBanks p.farray))) &&
  -- (e) devices of one block share array, role and range
  (decide (p.block ≠ q.block) || (decide (p.farray = q.farray) && decide (p.role = q.role) &&
    decide (p.firstBank = q.firstBank) && decide (p.maxBank = q.maxBank))) &&
  -- (f) priority bands grow with the block index
  (!decide (p.block < q.block) || (decide (p.prioRx < q.prioRx) && decide (p.prioRx < q.prioTx) &&
    decide (p.prioTx < q.prioRx) && decide (p.prioTx < q.prioTx)))

/-- The configuration has a run (R6, R7, R8, R67, R268; notes/assumptions/14.md). -/
def Config.admitted (c : Config) : Bool :=
  c.inRange && c.desc.all (fun p => c.rangeOk p) && c.desc.all (fun p => c.desc.all fun q => c.pairOk p q)

/-- The device id names a present device (R72). -/
def Config.hasDevice (c : Config) (d : Nat) : Bool := decide (d < c.numDev) && (c.descOf d).present

namespace Machine

/-- The outcome of an instruction or a step. -/
abbrev Result := Host.Outcome State Fault Refusal

/-- Register `i` of eight; `i` is 0 to 7. -/
def Words8.get (w : Words8) : Nat → Word
  | 0 => w.r0
  | 1 => w.r1
  | 2 => w.r2
  | 3 => w.r3
  | 4 => w.r4
  | 5 => w.r5
  | 6 => w.r6
  | 7 => w.r7
  | _ => 0

/-- Write register `i` of eight. -/
def Words8.set (w : Words8) (v : Word) : Nat → Words8
  | 0 => { w with r0 := v }
  | 1 => { w with r1 := v }
  | 2 => { w with r2 := v }
  | 3 => { w with r3 := v }
  | 4 => { w with r4 := v }
  | 5 => { w with r5 := v }
  | 6 => { w with r6 := v }
  | 7 => { w with r7 := v }
  | _ => w

/-- The listed registers from 0 up, 0 in the rest: what `end(code)` leaves in `RES0..7` (R11, R83). -/
def Words8.ofList (l : List Word) : Words8 :=
  ⟨l.getD 0 0, l.getD 1 0, l.getD 2 0, l.getD 3 0, l.getD 4 0, l.getD 5 0, l.getD 6 0, l.getD 7 0⟩

/-! ## State access -/

/-- `DESC[d]`. -/
def State.desc (s : State) (d : Nat) : Desc := s.cfg.descOf d

/-- `DESC[d].block`. -/
def State.blockOf (s : State) (d : Nat) : Nat := (s.desc d).block

/-- `DESC[d].farray`. -/
def State.farrayOf (s : State) (d : Nat) : Nat := (s.desc d).farray

/-- The state of device `d`. -/
def State.device (s : State) (d : Nat) : DevState := s.dev.getD d DevState.reset

/-- Replace the state of device `d`. -/
def State.setDevice (s : State) (d : Nat) (x : DevState) : State := { s with dev := s.dev.set d x }

/-- The state of block `b`. -/
def State.block (s : State) (b : Nat) : BlockState := s.blk.getD b BlockState.reset

/-- Replace the state of block `b`. -/
def State.setBlock (s : State) (b : Nat) (x : BlockState) : State := { s with blk := s.blk.set b x }

/-- What a filter array that does not exist reads as. -/
def FilterArray.absent : FilterArray := { banks := [], wp := true }

/-- Filter array `a`. -/
def State.array (s : State) (a : Nat) : FilterArray := s.flt.getD a FilterArray.absent

/-- Replace filter array `a`. -/
def State.setArray (s : State) (a : Nat) (x : FilterArray) : State := { s with flt := s.flt.set a x }

/-- Bank `k` of a filter array. -/
def FilterArray.bank (x : FilterArray) (k : Nat) : Bank := x.banks.getD k Bank.reset

/-- Bank `k` of array `a`. -/
def State.bank (s : State) (a k : Nat) : Bank := (s.array a).bank k

/-- A ring of a device. -/
def DevState.ring (x : DevState) : RingSel → Ring
  | .rx => x.rxr
  | .tx => x.txr

/-- Replace a ring of a device. -/
def DevState.setRing (x : DevState) (sel : RingSel) (r : Ring) : DevState :=
  match sel with
  | .rx => { x with rxr := r }
  | .tx => { x with txr := r }

/-- `RXR[d]` or `TXR[d]`. -/
def State.ring (s : State) (ref : RingRef) : Ring := (s.device ref.dev).ring ref.sel

/-- Replace a ring. -/
def State.setRing (s : State) (ref : RingRef) (r : Ring) : State :=
  s.setDevice ref.dev ((s.device ref.dev).setRing ref.sel r)

/-- Write `RX_IE[d]` (R250, `env.hw_interrupt_enable/disable`). -/
def State.setRxIe (s : State) (d : Nat) (v : Bool) : State := s.setDevice d { s.device d with rxIe := v }

/-- Write `TX_IE[d]`. -/
def State.setTxIe (s : State) (d : Nat) (v : Bool) : State := s.setDevice d { s.device d with txIe := v }

/-! ## Tables: lists of (key, value) pairs, keys strictly rising -/

/-- The value at a key; none where the key is not listed. -/
def Table.read {α : Type} : List (Nat × α) → Nat → Option α
  | [], _ => none
  | (k, v) :: rest, a => if k = a then some v else Table.read rest a

/-- Set the value at a key; the list stays in its canonical form (`Table.wf`). -/
def Table.write {α : Type} : List (Nat × α) → Nat → α → List (Nat × α)
  | [], a, b => [(a, b)]
  | (k, v) :: rest, a, b =>
    if a < k then (a, b) :: (k, v) :: rest
    else if a = k then (a, b) :: rest
    else (k, v) :: Table.write rest a b

/-- The canonical form: keys strictly rising. -/
abbrev Table.wf {α : Type} (m : List (Nat × α)) : Prop := m.Pairwise fun x y => x.1 < y.1

/-! ## Slot RAM (R53) -/

/-- The byte at an address; none where nothing was written (⊥). -/
def Memory.read (m : Memory) (a : Nat) : Option Byte := Table.read m a

/-- Write one byte and mark it written; the list stays in its canonical form (`Memory.wf`). -/
def Memory.write (m : Memory) (a : Nat) (b : Byte) : Memory := Table.write m a b

/-- The canonical form: addresses strictly rising. -/
abbrev Memory.wf (m : Memory) : Prop := Table.wf m

/-- Store a 32-bit word little-endian: byte `addr + i` receives bits `8i+7 .. 8i` (R53, R55). -/
def Memory.writeWord (m : Memory) (addr : Nat) (v : Word) : Memory :=
  Memory.write (Memory.write (Memory.write (Memory.write m addr (v.extractLsb' 0 8))
    (addr + 1) (v.extractLsb' 8 8)) (addr + 2) (v.extractLsb' 16 8)) (addr + 3) (v.extractLsb' 24 8)

/-- Load a 32-bit word little-endian; none when one of its four bytes is unwritten. -/
def Memory.readWord (m : Memory) (addr : Nat) : Option Word :=
  match Memory.read m addr, Memory.read m (addr + 1), Memory.read m (addr + 2), Memory.read m (addr + 3) with
  | some b0, some b1, some b2, some b3 => some (b3 ++ b2 ++ b1 ++ b0)
  | _, _, _, _ => none

/-- Why a slot access has no value (R53). -/
inductive SlotError where
  /-- a byte of the word at this offset is unwritten: `F_UNWRITTEN` -/
  | unwritten (offset : Nat)
  /-- the offset is misaligned or outside the slot RAM: `F_INTERNAL` -/
  | contract
  deriving DecidableEq, Repr

/-- The contract of the slot primitives: an aligned word inside the slot RAM (R53). -/
def Ring.offsetOk (r : Ring) (addr : Nat) : Bool := decide (addr % 4 = 0) && decide (addr + 4 ≤ 16 * r.cap)

/-- `MemRead(r, addr, 4)` (R53). -/
def Ring.memRead (r : Ring) (addr : Nat) : Except SlotError Word :=
  if r.offsetOk addr then
    match Memory.readWord r.slot addr with
    | some w => .ok w
    | none => .error (.unwritten addr)
  else .error .contract

/-- `MemWrite(r, addr, 4, v)` (R53); none when it breaks its contract. -/
def Ring.memWrite (r : Ring) (addr : Nat) (v : Word) : Option Ring :=
  if r.offsetOk addr then some { r with slot := Memory.writeWord r.slot addr v } else none

/-! ## Rings (41_ring.md) -/

/-- `ring_alloc(r, cap)` (R101). -/
def Ring.alloc (cap : Nat) : Ring := { cap := cap, head := 0, tail := 0, slot := [] }

/-- `ring_empty` (R102). -/
def Ring.isEmpty (r : Ring) : Bool := if r.cap = 0 then true else decide (r.head = r.tail)

/-- `ring_full` (R103). -/
def Ring.isFull (r : Ring) : Bool := if r.cap = 0 then true else decide ((r.head + 1) % r.cap = r.tail)

/-- `ring_count` (R104). -/
def Ring.count (r : Ring) : Nat := if r.cap = 0 then 0 else (r.head + r.cap - r.tail) % r.cap

/-- `ring_space` (R108). -/
def Ring.space (r : Ring) : Nat := if r.cap = 0 then 0 else r.cap - 1 - r.count

/-- The second step of `ring_push`: fill slot `h` with the frame's four words (R105). -/
def Ring.fill (r : Ring) (h : Nat) (w : FrameWords) : Option Ring := do
  let r0 ← r.memWrite (16 * h) w.fw0
  let r1 ← r0.memWrite (16 * h + 4) w.fw1
  let r2 ← r1.memWrite (16 * h + 8) w.fw2
  r2.memWrite (16 * h + 12) w.fw3

/-- The third step of `ring_push`: publish (R105). -/
def Ring.publish (r : Ring) (h : Nat) : Ring := { r with head := (h + 1) % r.cap }

/-- The second step of `ring_peek`: read slot `t` (R106). -/
def Ring.readSlot (r : Ring) (t : Nat) : Except SlotError FrameWords := do
  let w0 ← r.memRead (16 * t)
  let w1 ← r.memRead (16 * t + 4)
  let w2 ← r.memRead (16 * t + 8)
  let w3 ← r.memRead (16 * t + 12)
  pure ⟨w0, w1, w2, w3⟩

/-- The second step of `ring_pop`: advance (R107). -/
def Ring.advance (r : Ring) (t : Nat) : Ring := { r with tail := (t + 1) % r.cap }

/-! ## Positions, handler entry and exit, model faults -/

/-- The position of `APP`'s command: its first step where none is in progress. -/
def State.pos (s : State) : Pos := s.cur.getD .start

/-- The position of a handler in `ACTIVE`. -/
def State.handlerPos (s : State) (h : Handler) : Option Pos :=
  (s.active.find? fun r => decide (r.handler = h)).map Running.pos

/-- Move an agent to the position of its next step. -/
def State.goto (s : State) (a : Agent) (p : Pos) : State :=
  match a with
  | .app => { s with cur := some p }
  | .engine h =>
    { s with active := s.active.map fun r => if r.handler = h then { r with pos := p } else r }

/-- Handler entry: `ACTIVE <- ACTIVE ∪ {h}`, and nothing else is saved or masked (R231, R269). -/
def State.enterHandler (s : State) (h : Handler) (p : Pos) : State :=
  { s with active := s.active ++ [⟨h, p⟩] }

/-- Handler exit, part of its last step: `ACTIVE <- ACTIVE \ {h}`; nothing is restored (R231, R270). -/
def State.exitHandler (s : State) (h : Handler) : State :=
  { s with active := s.active.filter fun r => decide (r.handler ≠ h) }

/-- `fault F(info)`: record the fault; the agent it stops takes no further step (R11, R265). -/
def State.raise (s : State) (a : Agent) (f : ModelFault) : State :=
  if ⟨f, a⟩ ∈ s.faults then s else { s with faults := s.faults ++ [⟨f, a⟩] }

/-- The agent was stopped by a model fault (R265). -/
def State.stopped (s : State) (a : Agent) : Bool := s.faults.any fun r => decide (r.agent = a)

/-! ## Draws (R11) -/

/-- The environment's answer to the next draw: the next word of the tape, and a free value past its end. -/
def State.nextDraw (s : State) : Word :=
  match s.tape with
  | w :: _ => w
  | [] => Config.freeWord s.drawn

/-- The state after one draw. -/
def State.afterDraw (s : State) : State := { s with tape := s.tape.tail, drawn := s.drawn + 1 }

/-- A drawn Boolean, from bit 0 of the drawn word (notes/assumptions/2.md). -/
def drawnBool (w : Word) : Bool := w.getLsbD 0

/-- A draw of {INIT, NORMAL} (R250), from bit 0 of the drawn word. -/
def drawnMode (w : Word) : HwMode := if drawnBool w then .normal else .init

/-! ## External primitives (R250) -/

/-- `env.gpio_configure(pin, mode)`: no effect on CANQ state. -/
def State.envGpioConfigure (s : State) : State := s

/-- `env.hw_clock_enable(b)`: no effect on CANQ state. -/
def State.envClockEnable (s : State) (_b : Nat) : State := s

/-- `env.hw_interrupt_priority(b, kind, p)`: priorities are descriptor constants. -/
def State.envInterruptPriority (s : State) (_b : Nat) (_k : IrqKind) (_p : Nat) : State := s

/-- `env.hw_set_timing(b, timing)`: none beyond the controller's own timing. -/
def State.envSetTiming (s : State) (_b : Nat) (_timing : Word) : State := s

/-- `env.delay_us(n)`: none; no command calls it. -/
def State.envDelay (s : State) (_n : Nat) : State := s

/-- The level of a driven pin. -/
def Trx.ofLevel (v : Bool) : Trx := if v then .high else .low

/-- The level CANQ drives on a pin; Z where it drives none. -/
def State.pinLevel (s : State) (pin : Nat) : Trx :=
  match Table.read s.pins pin with
  | some v => Trx.ofLevel v
  | none => .z

/-- `TRX[d]`: the level CANQ drives on `DESC[d].trx_pin` (R31). DEDUCED: it is the pin's, so devices that name one pin name
one level (notes/assumptions/13.md); with no pin it has no meaning and reads Z. -/
def State.trx (s : State) (d : Nat) : Trx :=
  match (s.desc d).trxPin with
  | some pin => s.pinLevel pin
  | none => .z

/-- `env.gpio_write(pin, level)`: the level on the pin (R204, R250). -/
def State.envGpioWrite (s : State) (pin : Nat) (level : Bool) : State := { s with pins := Table.write s.pins pin level }

/-- The write to the transceiver pin of device `d` in `BEGIN` and `CLOSE`; nothing where it has none (R193, R195, R204). -/
def State.driveTrx (s : State) (d : Nat) (v : Bool) : State :=
  match (s.desc d).trxPin with
  | none => s
  | some pin => s.envGpioWrite pin v

/-- `env.hw_init(b, base, remap, timing)`: the drawn result and its effect. -/
def State.hwInit (s : State) (b _base _remap : Nat) (_timing : Word) : Bool × State :=
  let ok := drawnBool s.nextDraw
  let s1 := s.afterDraw
  if ok then (true, s1.setBlock b { s1.block b with hwMode := .normal, mbox := [], rxfifo := [] })
  else (false, s1.setBlock b { s1.block b with hwMode := .reset })

/-- `env.hw_mode(b, m)`: the drawn result; on failure the mode is a second draw. -/
def State.hwSetMode (s : State) (b : Nat) (m : HwMode) : Bool × State :=
  let ok := drawnBool s.nextDraw
  let s1 := s.afterDraw
  if ok then (true, s1.setBlock b { s1.block b with hwMode := m })
  else
    let s2 := s1.afterDraw
    (false, s2.setBlock b { s2.block b with hwMode := drawnMode s1.nextDraw })

/-- A mailbox is free and the controller is in NORMAL. -/
def State.canTransmit (s : State) (b : Nat) : Bool :=
  decide ((s.block b).mbox.length < s.cfg.mboxCount) && decide ((s.block b).hwMode = .normal)

/-- Load a frame into a mailbox of block `b`. -/
def State.loadMailbox (s : State) (b : Nat) (f : Frame) : State :=
  s.setBlock b { s.block b with mbox := (s.block b).mbox ++ [f] }

/-- `env.hw_transmit(b, f)`; where `HW_TX_MAY_FAIL`, a drawn Boolean decides. -/
def State.hwTransmit (s : State) (b : Nat) (f : Frame) : Bool × State :=
  if s.canTransmit b then
    if s.cfg.hwTxMayFail then
      if drawnBool s.nextDraw then (true, s.afterDraw.loadMailbox b f) else (false, s.afterDraw)
    else (true, s.loadMailbox b f)
  else (false, s)

/-- `env.hw_free_mailboxes(b)`. -/
def State.freeMailboxes (s : State) (b : Nat) : Nat := s.cfg.mboxCount - (s.block b).mbox.length

/-- `env.hw_read_error(b)`: a draw whose reserved bits 3 and 15:7 are 0 (R80, R242). -/
def errorRegister (w : Word) : Word := w &&& 0xFFFF0077

/-- `env.hw_deinit(b)`. -/
def State.hwDeinit (s : State) (b : Nat) : State :=
  s.setBlock b { s.block b with mbox := [], rxfifo := [], hwMode := .reset }

end Machine
end Sys2Proof
end

