-- ==== Sys2Proof/Machine/Operands.lean ====
section
/-!
DEFINITION. Operand and data layouts: frame words (spec/30_encoding.md R75), filter words and halves (R77, R78,
spec/43_filter.md R152, R167), and the operands a command reads (R83).
-/

namespace Sys2Proof
namespace Machine

/-- `ARG[i]` (R11). -/
def State.argWord (s : State) (i : Nat) : Word := s.arg.get i

/-! ## Frames -/

/-- The `ide` bit of a frame. -/
def IdType.bit : IdType → Bool
  | .std => false
  | .ext => true

/-- The `rtr` bit of a frame. -/
def FrameKind.bit : FrameKind → Bool
  | .data => false
  | .remote => true

/-- The ID type of an `ide` bit. -/
def IdType.ofBit (b : Bool) : IdType := if b then .ext else .std

/-- The frame type of an `rtr` bit. -/
def FrameKind.ofBit (b : Bool) : FrameKind := if b then .remote else .data

/-- `FW0..FW3` of a frame (R75); the payload is little-endian in FW2 and FW3 (R55). -/
def Frame.words (f : Frame) : FrameWords :=
  { fw0 := BitVec.ofBool false ++ BitVec.ofBool f.rtr.bit ++ BitVec.ofBool f.ide.bit ++ f.id
    fw1 := 0#28 ++ f.dlc
    fw2 := f.data.b3 ++ f.data.b2 ++ f.data.b1 ++ f.data.b0
    fw3 := f.data.b7 ++ f.data.b6 ++ f.data.b5 ++ f.data.b4 }

/-- The frame four words hold (R75). -/
def Frame.ofWords (w : FrameWords) : Frame :=
  { id := w.fw0.extractLsb' 0 29
    ide := IdType.ofBit (w.fw0.getLsbD 29)
    rtr := FrameKind.ofBit (w.fw0.getLsbD 30)
    dlc := w.fw1.extractLsb' 0 4
    data :=
      { b0 := w.fw2.extractLsb' 0 8, b1 := w.fw2.extractLsb' 8 8, b2 := w.fw2.extractLsb' 16 8,
        b3 := w.fw2.extractLsb' 24 8, b4 := w.fw3.extractLsb' 0 8, b5 := w.fw3.extractLsb' 8 8,
        b6 := w.fw3.extractLsb' 16 8, b7 := w.fw3.extractLsb' 24 8 } }

/-- A word quadruple is a valid frame (R75). -/
def FrameWords.valid (w : FrameWords) : Bool :=
  !w.fw0.getLsbD 31 && decide (w.fw1.extractLsb' 4 28 = 0) && decide ((w.fw1.extractLsb' 0 4).toNat ≤ 8) &&
  (w.fw0.getLsbD 29 || decide ((w.fw0.extractLsb' 0 29).toNat ≤ 0x7FF))

/-- A frame is valid (R13). -/
def Frame.valid (f : Frame) : Bool :=
  decide (f.dlc.toNat ≤ 8) && (decide (f.ide = .ext) || decide (f.id.toNat ≤ 0x7FF))

/-- `ARG0..3` as a frame operand. -/
def State.argFrame (s : State) : FrameWords :=
  { fw0 := s.argWord 0, fw1 := s.argWord 1, fw2 := s.argWord 2, fw3 := s.argWord 3 }

/-- The result words of a frame: `RES0..3` (R83). -/
def Frame.results (f : Frame) : List Word := [f.words.fw0, f.words.fw1, f.words.fw2, f.words.fw3]

/-! ## Filter words and halves (R152); the operands are in the ranges of R151 -/

/-- A bit as a word. -/
def bitWord (b : Bool) : Word := if b then 1 else 0

/-- `p32s(id, rtr)`: standard id pattern. -/
def p32s (id : Word) (rtr : Bool) : Word := id <<< 21 ||| bitWord rtr <<< 1

/-- `p32x(id, rtr)`: extended id pattern. -/
def p32x (id : Word) (rtr : Bool) : Word := id <<< 3 ||| 1 <<< 2 ||| bitWord rtr <<< 1

/-- `m32s(m)`: standard mask; the IDE mask bit is set. -/
def m32s (m : Word) : Word := m <<< 21 ||| 1 <<< 2

/-- `m32x(m)`: extended mask; the IDE mask bit is set. -/
def m32x (m : Word) : Word := m <<< 3 ||| 1 <<< 2

/-- `p16(id, rtr)`: a 16-bit standard pattern half, in a word. -/
def p16 (id : Word) (rtr : Bool) : Word := id <<< 5 ||| bitWord rtr <<< 4

/-- `m16(m)`: a 16-bit mask half, in a word; the IDE mask bit is set. -/
def m16 (m : Word) : Word := m <<< 5 ||| 1 <<< 3

/-- The high sub-filter in the upper half (R78). -/
def halves (hi lo : Word) : Word := hi <<< 16 ||| lo

/-- `v[15:0]`. -/
def loHalf (v : Word) : BitVec 16 := v.extractLsb' 0 16

/-- `v[31:16]`. -/
def hiHalf (v : Word) : BitVec 16 := v.extractLsb' 16 16

/-- `W32(f)`: the frame as a 32-bit filter word (R167). -/
def Frame.w32 (f : Frame) : Word :=
  match f.ide with
  | .ext => f.id.setWidth 32 <<< 3 ||| 1 <<< 2 ||| bitWord f.rtr.bit <<< 1
  | .std => f.id.setWidth 32 <<< 21 ||| bitWord f.rtr.bit <<< 1

/-- `H16(f)`: the frame as a 16-bit half (R167). -/
def Frame.h16 (f : Frame) : BitVec 16 :=
  match f.ide with
  | .ext => (f.id.extractLsb' 18 11).setWidth 16 <<< 5 ||| (if f.rtr.bit then 1 else 0) <<< 4 ||| 1 <<< 3 |||
      (f.id.extractLsb' 15 3).setWidth 16
  | .std => f.id.setWidth 16 <<< 5 ||| (if f.rtr.bit then 1 else 0) <<< 4

/-- The bank's control word (R79). -/
def Bank.control (x : Bank) : Word :=
  bitWord x.fm ||| bitWord x.fs <<< 1 ||| bitWord x.fa <<< 2 ||| bitWord x.fcfg <<< 3

end Machine
end Sys2Proof
end

