-- ==== Sys2Proof/Machine/Flags.lean ====
section
/-!
DEFINITION. What a command reports: the status codes and the `STATUS` word (spec/30_encoding.md R74, spec/10_state.md
R40), `end(code)` (spec/60_exceptions.md R260), the checks every command begins with (R72, R191, R262), and the error
classification of `GET_ERROR` (spec/44_controller.md R202). CANQ has no condition codes (R36).
-/

namespace Sys2Proof
namespace Machine

/-- The code of each status (R74). -/
def StatusCode.byte : StatusCode → Byte
  | .ok => 0x00
  | .full => 0x01
  | .empty => 0x02
  | .errBaud => 0x10
  | .errClaimed => 0x11
  | .errRange => 0x12
  | .errBank => 0x13
  | .errCap => 0x14
  | .errArg => 0x15
  | .errHw => 0x16
  | .errState => 0x20
  | .errOwner => 0x21
  | .errIllegal => 0x30

/-- `BUSY`: a command is in progress (R34, R40). -/
def State.busy (s : State) : Bool := s.cur.isSome

/-- The `STATUS` register: code in 7:0, `BUSY` in 8, 31:9 read as 0 (R40). -/
def State.status (s : State) : Word := 0#23 ++ BitVec.ofBool s.busy ++ s.code.byte

/-- `end(code)`: the status code, the written results and 0 in every other result register, and `BUSY` <- 0, in one
step (R11, R260). -/
def State.finish (s : State) (c : StatusCode) (results : List Word) : State :=
  { s with code := c, res := Words8.ofList results, cur := none }

/-- A command of one atomic step: its effect at the command's first step. -/
def single (s t : State) : Result :=
  match s.pos with
  | .start => .next t
  | _ => .fault .noSuchStep

/-- The device check of the decoder (R72). -/
def onDevice (d : Nat) (s t : State) : State := if s.cfg.hasDevice d then t else s.finish .errArg []

/-- The device check, then the lifecycle precondition RUNNING (R191, R262). -/
def whenRunning (d : Nat) (s t : State) : State :=
  onDevice d s (if (s.device d).st = .running then t else s.finish .errState [])

/-- `classify(esr)`: the error kind (R202). -/
def errorKind (esr : Word) : Word :=
  match (esr.extractLsb' 4 3).toNat with
  | 1 => 1 <<< 0
  | 2 => 1 <<< 1
  | 3 => 1 <<< 2
  | 4 => 1 <<< 3
  | 5 => 1 <<< 3
  | 6 => 1 <<< 4
  | 7 => 1 <<< 5
  | _ => 0

/-- `classify(esr)`: the health tier, from the bus-off flag and the counters (R202). -/
def errorTier (esr : Word) : Word :=
  let tec := (esr.extractLsb' 16 8).toNat
  let rec' := (esr.extractLsb' 24 8).toNat
  if esr.getLsbD 2 then 1 <<< 10
  else if tec > 127 ∨ rec' > 127 then 1 <<< 9
  else if tec ≥ 96 ∨ rec' ≥ 96 then 1 <<< 8
  else 0

/-- `classify(esr) = kind | tier` (R202). -/
def classify (esr : Word) : Word := errorKind esr ||| errorTier esr

end Machine
end Sys2Proof
end

