-- ==== Sys2Proof/Machine/BitTiming.lean ====
section
/-!
DEFINITION. The bit-timing solver (spec/42_bittiming.md) and `BT_SOLVE`. All values are naturals (R132, R137).
-/

namespace Sys2Proof
namespace Machine

/-- A successful result of `solve` (R130). -/
structure Solution where
  brp : Nat
  t1 : Nat
  t2 : Nat
  sjw : Nat
  q : Nat
  c : Nat
  deriving DecidableEq, Repr

/-- `QORDER` (R131). -/
def qorder : List Nat := [16, 15, 17, 14, 18, 13, 19, 12, 20, 11, 21, 10, 22, 9, 23, 8, 24]

/-- The distance of two naturals. -/
def distance (a b : Nat) : Nat := (a - b) + (b - a)

/-- The segment-1 length of R132: the candidate whose sample point is closer to 7/8, a tie to the larger. -/
def seg1 (q : Nat) : Nat :=
  let tl := 7 * q / 8 - 1
  let tu := tl + 1
  let eu := distance (8 * (1 + tu)) (7 * q)
  let el := distance (8 * (1 + tl)) (7 * q)
  if eu ≤ el then tu else tl

/-- The segment-2 length of R132. -/
def seg2 (q : Nat) : Nat := q - 1 - seg1 q

/-- A pair `(c, q)` gives a solution (R133). -/
def candidateOk (baud c q : Nat) : Bool :=
  decide (c % (baud * q) = 0) && decide (1 ≤ c / (baud * q)) && decide (c / (baud * q) ≤ 1024) &&
  decide (1 ≤ seg1 q) && decide (seg1 q ≤ 16) && decide (1 ≤ seg2 q) && decide (seg2 q ≤ 8)

/-- The record of the pair `(c, q)` (R130). -/
def candidate (baud c q : Nat) : Solution :=
  { brp := c / (baud * q), t1 := seg1 q, t2 := seg2 q, sjw := 1, q := q, c := c }

/-- The inner loop of R134 over a list of quanta counts. -/
def searchQuanta (baud c : Nat) : List Nat → Option Solution
  | [] => none
  | q :: rest => if candidateOk baud c q then some (candidate baud c q) else searchQuanta baud c rest

/-- The outer loop of R134: `n` clocks from `c` down, one hertz at a time; it ends at clock 0 (`dlt < clk`). -/
def searchClock (baud : Nat) : Nat → Nat → Option Solution
  | 0, _ => none
  | _ + 1, 0 => none
  | n + 1, c + 1 =>
    match searchQuanta baud (c + 1) qorder with
    | some r => some r
    | none => searchClock baud n c

/-- `CLK_DELTA_MAX(clk)` (R6). -/
def clkDeltaMax (clk : Nat) : Nat := clk / 1000

/-- `solve(baud, clk)` (R134); `none` is FAIL. -/
def solve (baud clk : Nat) : Option Solution :=
  if baud = 0 ∨ baud > Config.baudMax then none else searchClock baud (clkDeltaMax clk + 1) clk

/-- The timing word (R135). -/
def Solution.timing (r : Solution) : Word :=
  BitVec.ofNat 32 (r.brp - 1) ||| BitVec.ofNat 32 (r.t1 - 1) <<< 16 ||| BitVec.ofNat 32 (r.t2 - 1) <<< 20 |||
    BitVec.ofNat 32 (r.sjw - 1) <<< 24

/-- The six result words of `BT_SOLVE` at the nominal clock `clk` (R82, R136). DEDUCED, unsafe (notes/assumptions/20.md):
`RES4` is the rate at `clk`, as both rules say, not the `c / (brp·q)` of decision D15 in 92_eei_decisions.md. -/
def Solution.results (r : Solution) (clk : Nat) : List Word :=
  [r.timing,
   BitVec.ofNat 32 r.brp,
   BitVec.ofNat 32 r.t1 ||| BitVec.ofNat 32 r.t2 <<< 8 ||| BitVec.ofNat 32 r.sjw <<< 16 ||| BitVec.ofNat 32 r.q <<< 24,
   BitVec.ofNat 32 r.c,
   BitVec.ofNat 32 (clk / (r.brp * r.q)),
   BitVec.ofNat 32 (1000 * (1 + r.t1) / r.q)]

/-- `BT_SOLVE` (R136): no device and no lifecycle precondition. -/
def execBtSolve (s : State) : Result :=
  single s (
    match solve (s.argWord 0).toNat (s.argWord 1).toNat with
    | none => s.finish .errBaud []
    | some r => s.finish .ok (r.results (s.argWord 1).toNat))

end Machine
end Sys2Proof
end

