-- ==== Sys2Proof/Machine/Filter.lean ====
section
/-!
DEFINITION. The acceptance-filter family (spec/43_filter.md): bank ownership, the canonical primitive, the twelve
`FLT_*` commands, and the acceptance function of a block.
-/

namespace Sys2Proof
namespace Machine

/-! ## Ownership, validation and the canonical primitive -/

/-- Device `d` owns absolute bank `k` (R150). -/
def State.ownsBank (s : State) (d k : Nat) : Bool :=
  decide ((s.desc d).firstBank ≤ k) && decide (k ≤ (s.desc d).maxBank)

/-- `pre(d, k)`: the checks of R151 before a filter command reads an operand. -/
def pre (d k : Nat) (s t : State) : State :=
  whenRunning d s (if s.ownsBank d k then t else s.finish .errBank [])

/-- An 11-bit identifier or mask is in range (R151). -/
def stdRange (v : Word) : Bool := decide (v.toNat ≤ 0x7FF)

/-- A 29-bit identifier or mask is in range (R151). -/
def extRange (v : Word) : Bool := decide (v.toNat ≤ 0x1FFFFFFF)

/-- Write `WP[a]`. -/
def State.setWp (s : State) (a : Nat) (v : Bool) : State := s.setArray a { s.array a with wp := v }

/-- Write the registers of bank `k` of array `a`. -/
def State.setBank (s : State) (a k : Nat) (x : Bank) : State :=
  s.setArray a { s.array a with banks := (s.array a).banks.set k x }

/-- `configure(a, k, pat, msk, mode, scale, en)`: unlock, program, lock, in one atomic step (R153). -/
def State.configure (s : State) (a k : Nat) (pat msk : Word) (mode scale en : Bool) : State :=
  ((s.setWp a false).setBank a k { fr1 := pat, fr2 := msk, fm := mode, fs := scale, fa := en, fcfg := true }).setWp a true

/-- Toggle `FA[a][k]` inside the write-protect bracket (R162, R163). -/
def State.setActive (s : State) (a k : Nat) (v : Bool) : State :=
  let u := s.setWp a false
  (u.setBank a k { u.bank a k with fa := v }).setWp a true

/-- Reset the banks of the list that lie in `lo .. hi`; `i` is the index of the list's first bank. -/
def clearRange (lo hi : Nat) : Nat → List Bank → List Bank
  | _, [] => []
  | i, x :: rest => (if lo ≤ i ∧ i ≤ hi then Bank.reset else x) :: clearRange lo hi (i + 1) rest

/-- `clear_owned(d)` (R166). -/
def State.clearOwned (s : State) (d : Nat) : State :=
  let a := s.farrayOf d
  let u := s.setWp a false
  (u.setArray a
    { u.array a with banks := clearRange (s.desc d).firstBank (s.desc d).maxBank 0 (u.array a).banks }).setWp a true

/-- The end of a programming command: `RES0 = FR1[a][k]`, `RES1 = FR2[a][k]`, read after the write (R83). -/
def State.finishProgram (s : State) (a k : Nat) : State :=
  s.finish .ok [(s.bank a k).fr1, (s.bank a k).fr2]

/-- Program bank `k` of device `d` and end. -/
def programBank (d k : Nat) (pat msk : Word) (mode scale en : Bool) (s : State) : State :=
  (s.configure (s.farrayOf d) k pat msk mode scale en).finishProgram (s.farrayOf d) k

/-! ## Commands -/

/-- `FLT_CONFIGURE` (R154). -/
def execFltConfigure (d k : Nat) (s : State) : Result :=
  single s (pre d k s (
    if (s.argWord 2).extractLsb' 3 29 ≠ 0 then s.finish .errArg []
    else programBank d k (s.argWord 0) (s.argWord 1) ((s.argWord 2).getLsbD 0) ((s.argWord 2).getLsbD 1)
      ((s.argWord 2).getLsbD 2) s))

/-- `FLT_MASK32_STD` (R155). -/
def execFltMask32Std (d k : Nat) (s : State) : Result :=
  single s (pre d k s (
    if stdRange (s.argWord 0) && stdRange (s.argWord 1) then
      programBank d k (p32s (s.argWord 0) false) (m32s (s.argWord 1)) false true true s
    else s.finish .errRange []))

/-- `FLT_MASK32_EXT` (R156). -/
def execFltMask32Ext (d k : Nat) (s : State) : Result :=
  single s (pre d k s (
    if extRange (s.argWord 0) && extRange (s.argWord 1) then
      programBank d k (p32x (s.argWord 0) false) (m32x (s.argWord 1)) false true true s
    else s.finish .errRange []))

/-- `FLT_LIST32_STD` (R157): the range check comes before the operand check (R262). -/
def execFltList32Std (d k : Nat) (s : State) : Result :=
  single s (pre d k s (
    if stdRange (s.argWord 0) && stdRange (s.argWord 1) then
      if (s.argWord 2).extractLsb' 2 30 ≠ 0 then s.finish .errArg []
      else programBank d k (p32s (s.argWord 0) ((s.argWord 2).getLsbD 0))
        (p32s (s.argWord 1) ((s.argWord 2).getLsbD 1)) true true true s
    else s.finish .errRange []))

/-- `FLT_LIST32_EXT` (R158). -/
def execFltList32Ext (d k : Nat) (s : State) : Result :=
  single s (pre d k s (
    if extRange (s.argWord 0) && extRange (s.argWord 1) then
      if (s.argWord 2).extractLsb' 2 30 ≠ 0 then s.finish .errArg []
      else programBank d k (p32x (s.argWord 0) ((s.argWord 2).getLsbD 0))
        (p32x (s.argWord 1) ((s.argWord 2).getLsbD 1)) true true true s
    else s.finish .errRange []))

/-- `FLT_MASK16` (R159): pattern halves in `FR1`, mask halves in `FR2`. -/
def execFltMask16 (d k : Nat) (s : State) : Result :=
  single s (pre d k s (
    if stdRange (s.argWord 0) && stdRange (s.argWord 1) && stdRange (s.argWord 2) && stdRange (s.argWord 3) then
      programBank d k (halves (p16 (s.argWord 2) false) (p16 (s.argWord 0) false))
        (halves (m16 (s.argWord 3)) (m16 (s.argWord 1))) false false true s
    else s.finish .errRange []))

/-- `FLT_LIST16` (R160). -/
def execFltList16 (d k : Nat) (s : State) : Result :=
  let e := fun i => p16 (s.argWord i) ((s.argWord 4).getLsbD i)
  single s (pre d k s (
    if stdRange (s.argWord 0) && stdRange (s.argWord 1) && stdRange (s.argWord 2) && stdRange (s.argWord 3) then
      if (s.argWord 4).extractLsb' 4 28 ≠ 0 then s.finish .errArg []
      else programBank d k (halves (e 1) (e 0)) (halves (e 3) (e 2)) true false true s
    else s.finish .errRange []))

/-- `FLT_ACCEPT_ALL` (R161): the operand is checked before the bank it selects. -/
def execFltAcceptAll (d : Nat) (s : State) : Result :=
  let t := (s.argWord 0).getLsbD 0
  let k := (s.desc d).firstBank + t.toNat
  single s (whenRunning d s (
    if (s.argWord 0).extractLsb' 1 31 ≠ 0 then s.finish .errArg []
    else if k > (s.desc d).maxBank then s.finish .errBank []
    else
      let a := s.farrayOf d
      let u := s.configure a k (bitWord t <<< 2) (1 <<< 2) false true true
      u.finish .ok [(u.bank a k).fr1, (u.bank a k).fr2, BitVec.ofNat 32 k]))

/-- `FLT_ENABLE` (R162). -/
def execFltEnable (d k : Nat) (s : State) : Result :=
  let a := s.farrayOf d
  single s (pre d k s (
    if (s.bank a k).fcfg then (s.setActive a k true).finish .ok [] else s.finish .errArg []))

/-- `FLT_DISABLE` (R163). -/
def execFltDisable (d k : Nat) (s : State) : Result :=
  single s (pre d k s ((s.setActive (s.farrayOf d) k false).finish .ok []))

/-- `FLT_CLEAR_ALL` (R164). -/
def execFltClearAll (d : Nat) (s : State) : Result :=
  single s (whenRunning d s ((s.clearOwned d).finish .ok []))

/-- `FLT_READ` (R165). -/
def execFltRead (d k : Nat) (s : State) : Result :=
  let x := s.bank (s.farrayOf d) k
  single s (pre d k s (s.finish .ok [x.fr1, x.fr2, x.control]))

/-! ## Acceptance -/

/-- `match(a, k, f)` for the registers of one bank (R168). -/
def Bank.accepts (x : Bank) (f : Frame) : Bool :=
  x.fa &&
  match x.fm, x.fs with
  | false, true => decide (f.w32 &&& x.fr2 = x.fr1 &&& x.fr2)
  | true, true => decide (f.w32 = x.fr1) || decide (f.w32 = x.fr2)
  | false, false =>
    decide (f.h16 &&& loHalf x.fr2 = loHalf x.fr1 &&& loHalf x.fr2) ||
    decide (f.h16 &&& hiHalf x.fr2 = hiHalf x.fr1 &&& hiHalf x.fr2)
  | true, false =>
    decide (f.h16 = loHalf x.fr1) || decide (f.h16 = hiHalf x.fr1) || decide (f.h16 = loHalf x.fr2) ||
    decide (f.h16 = hiHalf x.fr2)

/-- Some bank of the owned range of device `d` matches (R169). -/
def State.deviceAccepts (s : State) (d : Nat) (f : Frame) : Bool :=
  (List.range' (s.desc d).firstBank ((s.desc d).maxBank + 1 - (s.desc d).firstBank)).any fun k =>
    (s.bank (s.farrayOf d) k).accepts f

/-- `accepts(b, f)`: by the descriptor of any device of block `b`; all of them agree (R8(e), R169). -/
def State.accepts (s : State) (b : Nat) (f : Frame) : Bool :=
  match (List.range s.cfg.numDev).find? fun d => decide (s.blockOf d = b) with
  | some d => s.deviceAccepts d f
  | none => false

/-- `ENMASK[d]`: bit `k` is `FA` of bank `k` in the owned range, 0 elsewhere: a view (R30). -/
def State.enmask (s : State) (d k : Nat) : Bool := s.ownsBank d k && (s.bank (s.farrayOf d) k).fa

end Machine
end Sys2Proof
end

