-- ==== Sys2Proof/Machine/Ring.lean ====
section
/-!
DEFINITION. The ring family (spec/41_ring.md): the atomic steps of `ring_push`, `ring_peek` and `ring_pop` as an agent
takes them, and the six `RB_*` commands.
-/

namespace Sys2Proof
namespace Machine

/-! ## The steps of the primitives. `a` is the agent that calls the primitive. -/

/-- `ring_push`, first step (R105): a full ring leads to `ifFull` with nothing written. -/
def pushCheckStep (a : Agent) (ref : RingRef) (f : Frame) (ifFull : Pos) (s : State) : State :=
  if (s.ring ref).isFull then s.goto a ifFull else s.goto a (.pushFill (s.ring ref).head f)

/-- `ring_push`, second step (R105): fill slot `h`. -/
def pushFillStep (a : Agent) (ref : RingRef) (h : Nat) (f : Frame) (s : State) : State :=
  match (s.ring ref).fill h f.words with
  | some r => (s.setRing ref r).goto a (.pushPublish h)
  | none => s.raise a (.internal .memWrite)

/-- `ring_push`, third step (R105): publish `HEAD`, the last action. -/
def pushPublishStep (a : Agent) (ref : RingRef) (h : Nat) (after : Pos) (s : State) : State :=
  (s.setRing ref ((s.ring ref).publish h)).goto a after

/-- `ring_peek`, first step (R106): an empty ring leads to `ifEmpty`. -/
def peekCheckStep (a : Agent) (ref : RingRef) (ifEmpty : Pos) (s : State) : State :=
  if (s.ring ref).isEmpty then s.goto a ifEmpty else s.goto a (.peekRead (s.ring ref).tail)

/-- `ring_peek`, second step (R106): read slot `t`; `TAIL` does not move. -/
def peekReadStep (a : Agent) (ref : RingRef) (t : Nat) (after : Frame → Pos) (s : State) : State :=
  match (s.ring ref).readSlot t with
  | .ok w => s.goto a (after (Frame.ofWords w))
  | .error (.unwritten off) => s.raise a (.unwritten ref off)
  | .error .contract => s.raise a (.internal .memRead)

/-- `ring_pop`, first step (R107). `x` is carried for the caller. -/
def popCheckStep (a : Agent) (ref : RingRef) (x : Option Frame) (ifEmpty : Pos) (s : State) : State :=
  if (s.ring ref).isEmpty then s.goto a ifEmpty else s.goto a (.popAdvance (s.ring ref).tail x)

/-- `ring_pop`, second step (R107): advance `TAIL`. -/
def popAdvanceStep (a : Agent) (ref : RingRef) (t : Nat) (after : Pos) (s : State) : State :=
  (s.setRing ref ((s.ring ref).advance t)).goto a after

/-! ## Commands -/

/-- A Boolean result word (R83). -/
def boolResult (b : Bool) : Word := bitWord b

/-- `RB_IS_EMPTY` (R110). -/
def execRbIsEmpty (d : Nat) (ring : RingSel) (s : State) : Result :=
  match s.pos with
  | .start => .next (whenRunning d s (s.goto .app .query))
  | .query => .next (s.finish .ok [boolResult (s.ring ⟨d, ring⟩).isEmpty])
  | _ => .fault .noSuchStep

/-- `RB_IS_FULL` (R111). -/
def execRbIsFull (d : Nat) (ring : RingSel) (s : State) : Result :=
  match s.pos with
  | .start => .next (whenRunning d s (s.goto .app .query))
  | .query => .next (s.finish .ok [boolResult (s.ring ⟨d, ring⟩).isFull])
  | _ => .fault .noSuchStep

/-- `RB_COUNT` (R112). -/
def execRbCount (d : Nat) (ring : RingSel) (s : State) : Result :=
  match s.pos with
  | .start => .next (whenRunning d s (s.goto .app .query))
  | .query => .next (s.finish .ok [BitVec.ofNat 32 (s.ring ⟨d, ring⟩).count])
  | _ => .fault .noSuchStep

/-- `RB_PUSH` (R113): `APP` is the producer of the transmit ring only. It does not set `TX_IE[d]`. -/
def execRbPush (d : Nat) (ring : RingSel) (s : State) : Result :=
  match s.pos with
  | .start => .next (whenRunning d s (
      if ring = .rx then s.finish .errOwner []
      else if s.argFrame.valid then s.goto .app (.pushCheck (Frame.ofWords s.argFrame))
      else s.finish .errArg []))
  | .pushCheck f => .next (pushCheckStep .app ⟨d, .tx⟩ f (.finishBool false) s)
  | .pushFill h f => .next (pushFillStep .app ⟨d, .tx⟩ h f s)
  | .pushPublish h => .next (pushPublishStep .app ⟨d, .tx⟩ h (.finishBool true) s)
  | .finishBool ok => .next (s.finish (if ok then .ok else .full) [])
  | _ => .fault .noSuchStep

/-- `RB_PEEK` (R114): `APP` is the consumer of the receive ring only. -/
def execRbPeek (d : Nat) (ring : RingSel) (s : State) : Result :=
  match s.pos with
  | .start => .next (whenRunning d s (
      if ring = .tx then s.finish .errOwner [] else s.goto .app .peekCheck))
  | .peekCheck => .next (peekCheckStep .app ⟨d, .rx⟩ (.finishFrame none) s)
  | .peekRead t => .next (peekReadStep .app ⟨d, .rx⟩ t (fun f => .finishFrame (some f)) s)
  | .finishFrame none => .next (s.finish .empty [])
  | .finishFrame (some f) => .next (s.finish .ok f.results)
  | _ => .fault .noSuchStep

/-- `RB_POP` (R115). It does not set `RX_IE[d]`. -/
def execRbPop (d : Nat) (ring : RingSel) (s : State) : Result :=
  match s.pos with
  | .start => .next (whenRunning d s (
      if ring = .tx then s.finish .errOwner [] else s.goto .app (.popCheck none)))
  | .popCheck x => .next (popCheckStep .app ⟨d, .rx⟩ x (.finishBool false) s)
  | .popAdvance t _ => .next (popAdvanceStep .app ⟨d, .rx⟩ t (.finishBool true) s)
  | .finishBool ok => .next (s.finish (if ok then .ok else .empty) [])
  | _ => .fault .noSuchStep

end Machine
end Sys2Proof
end

