-- ==== Sys2Proof/Machine/Controller.lean ====
section
/-!
DEFINITION. The controller family (spec/44_controller.md): registry and lifecycle, the write path, the read path and
error reporting.
-/

namespace Sys2Proof
namespace Machine

/-! ## Lifecycle -/

/-- The claim of `OPEN` (R192): registry, rings, enables, timing state, lifecycle. -/
def State.claimDevice (s : State) (d rxCap txCap : Nat) : State :=
  let u := s.setBlock (s.blockOf d) { s.block (s.blockOf d) with claim := true, owner := d }
  u.setDevice d
    { u.device d with
      rxr := Ring.alloc rxCap, txr := Ring.alloc txCap, rxIe := false, txIe := false,
      timing := 0, baud := 0, baudValid := false, st := .configured }

/-- `OPEN` (R192): the capacities are checked before the claim. -/
def execDevOpen (d : Nat) (s : State) : Result :=
  let rxCap := (s.argWord 0).toNat
  let txCap := (s.argWord 1).toNat
  single s (onDevice d s (
    if ¬ (rxCap ∈ Config.capSetRx ∧ txCap ∈ Config.capSetTx) then s.finish .errCap []
    else if (s.block (s.blockOf d)).claim then s.finish .errClaimed []
    else (s.claimDevice d rxCap txCap).finish .ok []))

/-- The set-up calls `BEGIN` makes before the solver (R193); they have no state in CANQ (R250). -/
def State.beginSetup (s : State) (d : Nat) : State :=
  let s1 := s.envClockEnable (s.blockOf d)
  let s2 := s1.envGpioConfigure
  let s3 := if (s.desc d).trxPin = none then s2 else s2.envGpioConfigure
  (s3.envInterruptPriority (s.blockOf d) .rx (s.desc d).prioRx).envInterruptPriority (s.blockOf d) .tx (s.desc d).prioTx

/-- What a successful `BEGIN` leaves (R193): timing, cleared banks, the RX interrupt armed, the pin awake, RUNNING. -/
def State.startDevice (s : State) (d : Nat) (timing baud : Word) : State :=
  let s1 := s.setDevice d { s.device d with timing := timing, baud := baud, baudValid := true }
  let s2 := s1.clearOwned d
  let s3 := (s2.setRxIe d true).setTxIe d false
  let s4 := s3.driveTrx d (s.desc d).trxAwake
  s4.setDevice d { s4.device d with st := .running }

/-- `BEGIN` (R193): one atomic step. -/
def execDevBegin (d : Nat) (s : State) : Result :=
  single s (onDevice d s (
    if (s.device d).st ≠ .configured then s.finish .errState []
    else
      let u := s.beginSetup d
      match solve (s.argWord 0).toNat (s.desc d).pclk with
      | none => u.finish .errBaud []
      | some r =>
        match u.hwInit (s.blockOf d) (s.desc d).base (s.desc d).remap r.timing with
        | (false, v) => v.finish .errHw []
        | (true, v) => (v.startDevice d r.timing (s.argWord 0)).finish .ok [r.timing]))

/-- The timing state after a failed mode change is two draws and `BAUD_VALID` = 0 (R194, "left unspecified"). -/
def State.loseTiming (s : State) (d : Nat) : State :=
  let t := s.nextDraw
  let s1 := s.afterDraw
  let r := s1.nextDraw
  let s2 := s1.afterDraw
  s2.setDevice d { s2.device d with timing := t, baud := r, baudValid := false }

/-- The hardware half of `SET_BAUDRATE` (R194): INIT, timing, NORMAL; either mode change may fail. -/
def State.reprogram (s : State) (d : Nat) (timing baud : Word) : State :=
  match s.hwSetMode (s.blockOf d) .init with
  | (false, u) => (u.loseTiming d).finish .errHw []
  | (true, u) =>
    match (u.envSetTiming (s.blockOf d) timing).hwSetMode (s.blockOf d) .normal with
    | (false, v) => (v.loseTiming d).finish .errHw []
    | (true, v) =>
      (v.setDevice d { v.device d with timing := timing, baud := baud, baudValid := true }).finish .ok [timing]

/-- `SET_BAUDRATE` (R194). -/
def execSetBaudrate (d : Nat) (s : State) : Result :=
  single s (whenRunning d s (
    match solve (s.argWord 0).toNat (s.desc d).pclk with
    | none => s.finish .errBaud []
    | some r => s.reprogram d r.timing (s.argWord 0)))

/-- The effect of `CLOSE` (R195), in its order. `OWNER[b]` keeps its stale value (R281). -/
def State.releaseDevice (s : State) (d : Nat) : State :=
  let s1 := (s.setRxIe d false).setTxIe d false
  let s2 := s1.setDevice d { s1.device d with rxr := Ring.unallocated, txr := Ring.unallocated }
  let s3 := s2.clearOwned d
  let s4 := s3.hwDeinit (s.blockOf d)
  let s5 := s4.setDevice d { s4.device d with timing := 0, baud := 0, baudValid := false }
  let s6 := s5.driveTrx d (!(s.desc d).trxAwake)
  let s7 := s6.setBlock (s.blockOf d) { s6.block (s.blockOf d) with claim := false }
  s7.setDevice d { s7.device d with st := .uninit }

/-- `CLOSE` (R195). -/
def execDevClose (d : Nat) (s : State) : Result :=
  single s (onDevice d s (
    if (s.device d).st = .uninit then s.finish .errState []
    else (s.releaseDevice d).finish .ok []))

/-! ## Write path -/

/-- `WRITE` (R196). A direct send is attempted only when the TX ring is empty and never sets `TX_IE[d]`.
Its branches are taken in the step before (notes/assumptions/15.md). -/
def execWrite (d : Nat) (s : State) : Result :=
  match s.pos with
  | .start => .next (whenRunning d s (
      if s.argFrame.valid then s.goto .app (.testEmpty (Frame.ofWords s.argFrame)) else s.finish .errArg []))
  | .testEmpty f => .next (s.goto .app (if (s.ring ⟨d, .tx⟩).isEmpty then .direct f else .pushCheck f))
  | .direct f => .next (
      match s.hwTransmit (s.blockOf d) f with
      | (true, u) => u.goto .app .directDone
      | (false, u) => u.goto .app (if (u.ring ⟨d, .tx⟩).cap = 0 then .noQueue else .pushCheck f))
  | .directDone => .next (s.finish .ok [0])
  | .noQueue => .next (s.finish .full [])
  | .pushCheck f => .next (pushCheckStep .app ⟨d, .tx⟩ f (.finishBool false) s)
  | .pushFill h f => .next (pushFillStep .app ⟨d, .tx⟩ h f s)
  | .pushPublish h => .next (pushPublishStep .app ⟨d, .tx⟩ h (.finishBool true) s)
  | .finishBool true => .next ((s.setTxIe d true).finish .ok [1])
  | .finishBool false => .next (s.finish .full [])
  | _ => .fault .noSuchStep

/-- `AVAILABLE_FOR_WRITE` (R197). -/
def execAvailableForWrite (d : Nat) (s : State) : Result :=
  single s (whenRunning d s (
    s.finish .ok [BitVec.ofNat 32 ((s.ring ⟨d, .tx⟩).space + s.freeMailboxes (s.blockOf d))]))

/-! ## Read path -/

/-- `AVAILABLE` (R198). -/
def execAvailable (d : Nat) (s : State) : Result :=
  single s (whenRunning d s (s.finish .ok [BitVec.ofNat 32 (s.ring ⟨d, .rx⟩).count]))

/-- The last step of `PEEK` and `READ`: `RX_IE[d]` <- 1 whatever it was before, then the outcome (R199, R200). -/
def finishRead (d : Nat) (x : Option Frame) (s : State) : State :=
  match x with
  | none => (s.setRxIe d true).finish .empty []
  | some f => (s.setRxIe d true).finish .ok f.results

/-- `PEEK` (R199). -/
def execPeek (d : Nat) (s : State) : Result :=
  match s.pos with
  | .start => .next (whenRunning d s (s.goto .app .mask))
  | .mask => .next ((s.setRxIe d false).goto .app .peekCheck)
  | .peekCheck => .next (peekCheckStep .app ⟨d, .rx⟩ (.finishFrame none) s)
  | .peekRead t => .next (peekReadStep .app ⟨d, .rx⟩ t (fun f => .finishFrame (some f)) s)
  | .finishFrame x => .next (finishRead d x s)
  | _ => .fault .noSuchStep

/-- `READ` (R200): the masking step, then `ring_peek`, then `ring_pop`. -/
def execRead (d : Nat) (s : State) : Result :=
  match s.pos with
  | .start => .next (whenRunning d s (s.goto .app .mask))
  | .mask => .next ((s.setRxIe d false).goto .app .peekCheck)
  | .peekCheck => .next (peekCheckStep .app ⟨d, .rx⟩ (.finishFrame none) s)
  | .peekRead t => .next (peekReadStep .app ⟨d, .rx⟩ t (fun f => .popCheck (some f)) s)
  | .popCheck x => .next (popCheckStep .app ⟨d, .rx⟩ x (.finishFrame x) s)
  | .popAdvance t x => .next (popAdvanceStep .app ⟨d, .rx⟩ t (.finishFrame x) s)
  | .finishFrame x => .next (finishRead d x s)
  | _ => .fault .noSuchStep

/-! ## Error reporting -/

/-- `GET_ERROR` (R201): the register is a draw (R242). -/
def execGetError (d : Nat) (s : State) : Result :=
  let esr := errorRegister s.nextDraw
  single s (whenRunning d s (s.afterDraw.finish .ok [classify esr, esr]))

end Machine
end Sys2Proof
end

