-- ==== Sys2Proof/Machine/Irq.lean ====
section
/-!
DEFINITION. The two engine handlers of a device (spec/45_irq.md R231 to R233) and the two steps of the controller
environment `BUS[b]` (R240, R241). A handler never touches the command port, `CUR` or, but for a model fault,
`FAULTS` (R231).
-/

namespace Sys2Proof
namespace Machine

/-- `env.hw_receive(b)` removes the first frame of the FIFO (R250). -/
def State.popFifo (s : State) (b : Nat) : State :=
  s.setBlock b { s.block b with rxfifo := (s.block b).rxfifo.tail }

/-- `IRQ_RX` (R232): the entry step where the handler is not in `ACTIVE`, else its next step. -/
def execIrqRx (d : Nat) (s : State) : Result :=
  let h : Handler := ⟨d, .rx⟩
  let b := s.blockOf d
  match s.handlerPos h with
  | none => .next (s.enterHandler h (if (s.ring ⟨d, .rx⟩).isFull then .backPressure else .receive))
  | some .backPressure => .next ((s.setRxIe d false).exitHandler h)
  | some .receive => .next (
      match (s.block b).rxfifo with
      | f :: _ => (s.popFifo b).goto (.engine h) (.pushCheck f)
      | [] => s.raise (.engine h) (.internal .hwReceive))
  | some (.pushCheck f) => .next (pushCheckStep (.engine h) ⟨d, .rx⟩ f .exit s)
  | some (.pushFill i f) => .next (pushFillStep (.engine h) ⟨d, .rx⟩ i f s)
  | some (.pushPublish i) => .next (pushPublishStep (.engine h) ⟨d, .rx⟩ i .exit s)
  | some .exit => .next (s.exitHandler h)
  | some _ => .fault .noSuchStep

/-- `IRQ_TX` (R233): the entry step where the handler is not in `ACTIVE`, else its next step. The last step clears
`TX_IE[d]` when the ring is empty: mandatory. A peek that finds the ring empty is `F_INTERNAL`
(notes/assumptions/11.md). -/
def execIrqTx (d : Nat) (s : State) : Result :=
  let h : Handler := ⟨d, .tx⟩
  let ref : RingRef := ⟨d, .tx⟩
  match s.handlerPos h with
  | none => .next (s.enterHandler h .loopTest)
  | some .loopTest => .next (s.goto (.engine h) (if (s.ring ref).isEmpty then .exit else .peekCheck))
  | some .peekCheck => .next (
      if (s.ring ref).isEmpty then s.raise (.engine h) (.internal .hwTransmit)
      else s.goto (.engine h) (.peekRead (s.ring ref).tail))
  | some (.peekRead t) => .next (peekReadStep (.engine h) ref t (fun f => .transmit f) s)
  | some (.transmit f) => .next (
      match s.hwTransmit (s.blockOf d) f with
      | (true, u) => u.goto (.engine h) (.popCheck none)
      | (false, u) => u.goto (.engine h) .exit)
  | some (.popCheck x) => .next (popCheckStep (.engine h) ref x .loopTest s)
  | some (.popAdvance t _) => .next (popAdvanceStep (.engine h) ref t .loopTest s)
  | some .exit => .next ((if (s.ring ref).isEmpty then s.setTxIe d false else s).exitHandler h)
  | some _ => .fault .noSuchStep

/-! ## `BUS[b]` -/

/-- Transmit completion (R240). -/
def busComplete (b : Nat) (s : State) : State :=
  if (s.block b).hwMode = .normal then s.setBlock b { s.block b with mbox := (s.block b).mbox.tail } else s

/-- The four words of the drawn frame of an arrival. -/
def State.drawnFrame (s : State) : FrameWords :=
  { fw0 := s.nextDraw
    fw1 := s.afterDraw.nextDraw
    fw2 := s.afterDraw.afterDraw.nextDraw
    fw3 := s.afterDraw.afterDraw.afterDraw.nextDraw }

/-- The state after the four draws of an arrival's frame. -/
def State.afterFrame (s : State) : State := s.afterDraw.afterDraw.afterDraw.afterDraw

/-- Replace the last frame of a FIFO. -/
def overwriteLast (l : List Frame) (f : Frame) : List Frame := l.dropLast ++ [f]

/-- A frame reaches the receive FIFO; at an overrun a draw decides what is lost (R241, `FIFO_OVERRUN`). -/
def State.deliver (s : State) (b : Nat) (f : Frame) : State :=
  if (s.block b).rxfifo.length < s.cfg.rxFifoDepth then
    s.setBlock b { s.block b with rxfifo := (s.block b).rxfifo ++ [f] }
  else
    let u := s.afterDraw
    if drawnBool s.nextDraw then u.setBlock b { u.block b with rxfifo := overwriteLast (u.block b).rxfifo f } else u

/-- Arrival (R241): the drawn frame arrives when it is valid and block `b` accepts it; another draw is no arrival
(notes/assumptions/5.md). -/
def busArrive (b : Nat) (s : State) : State :=
  if (s.block b).hwMode = .normal then
    let w := s.drawnFrame
    if w.valid && s.accepts b (Frame.ofWords w) then s.afterFrame.deliver b (Frame.ofWords w) else s.afterFrame
  else s

end Machine
end Sys2Proof
end

