-- ==== Sys2Proof/Machine/Dispatch.lean ====
section
/-! DEFINITION. The dispatch of every row of the opcode table to its meaning: `exec i s` is the next atomic step of
command or handler `i` in state `s` (spec/00_scope.md R12). -/

namespace Sys2Proof
namespace Machine

def exec (i : Instr) (s : State) : Host.Outcome State Fault Refusal :=
  match i with
  | .rbIsEmpty d ring => Sys2Proof.Machine.execRbIsEmpty d ring s
  | .rbIsFull d ring => Sys2Proof.Machine.execRbIsFull d ring s
  | .rbCount d ring => Sys2Proof.Machine.execRbCount d ring s
  | .rbPush d ring => Sys2Proof.Machine.execRbPush d ring s
  | .rbPeek d ring => Sys2Proof.Machine.execRbPeek d ring s
  | .rbPop d ring => Sys2Proof.Machine.execRbPop d ring s
  | .btSolve => Sys2Proof.Machine.execBtSolve s
  | .fltConfigure d k => Sys2Proof.Machine.execFltConfigure d k s
  | .fltMask32Std d k => Sys2Proof.Machine.execFltMask32Std d k s
  | .fltMask32Ext d k => Sys2Proof.Machine.execFltMask32Ext d k s
  | .fltList32Std d k => Sys2Proof.Machine.execFltList32Std d k s
  | .fltList32Ext d k => Sys2Proof.Machine.execFltList32Ext d k s
  | .fltMask16 d k => Sys2Proof.Machine.execFltMask16 d k s
  | .fltList16 d k => Sys2Proof.Machine.execFltList16 d k s
  | .fltAcceptAll d => Sys2Proof.Machine.execFltAcceptAll d s
  | .fltEnable d k => Sys2Proof.Machine.execFltEnable d k s
  | .fltDisable d k => Sys2Proof.Machine.execFltDisable d k s
  | .fltClearAll d => Sys2Proof.Machine.execFltClearAll d s
  | .fltRead d k => Sys2Proof.Machine.execFltRead d k s
  | .devOpen d => Sys2Proof.Machine.execDevOpen d s
  | .devBegin d => Sys2Proof.Machine.execDevBegin d s
  | .setBaudrate d => Sys2Proof.Machine.execSetBaudrate d s
  | .devClose d => Sys2Proof.Machine.execDevClose d s
  | .write d => Sys2Proof.Machine.execWrite d s
  | .availableForWrite d => Sys2Proof.Machine.execAvailableForWrite d s
  | .available d => Sys2Proof.Machine.execAvailable d s
  | .peek d => Sys2Proof.Machine.execPeek d s
  | .read d => Sys2Proof.Machine.execRead d s
  | .getError d => Sys2Proof.Machine.execGetError d s
  | .irqRx d => Sys2Proof.Machine.execIrqRx d s
  | .irqTx d => Sys2Proof.Machine.execIrqTx d s

end Machine
end Sys2Proof
end

