-- ==== Sys2Proof/Machine/Schedule.lean ====
section
/-!
DEFINITION. Who may step (spec/20_memory.md R60), the interrupt lines and priorities (spec/10_state.md R33,
spec/45_irq.md R230, R234), the host port (R51, R52), and what each event does.
-/

namespace Sys2Proof
namespace Machine

/-! ## Lines and priorities -/

/-- `IRQ_RX[d]` (R33). -/
def State.irqRxLine (s : State) (d : Nat) : Bool :=
  decide ((s.device d).st = .running) && (s.device d).rxIe && !(s.block (s.blockOf d)).rxfifo.isEmpty

/-- `IRQ_TX[d]` (R33). -/
def State.irqTxLine (s : State) (d : Nat) : Bool :=
  decide ((s.device d).st = .running) && (s.device d).txIe &&
  decide ((s.block (s.blockOf d)).mbox.length < s.cfg.mboxCount)

/-- The line of a handler. -/
def State.line (s : State) (h : Handler) : Bool :=
  match h.kind with
  | .rx => s.irqRxLine h.dev
  | .tx => s.irqTxLine h.dev

/-- The priority number `p(d, k)` (R60, R234). -/
def State.prio (s : State) (h : Handler) : Nat :=
  match h.kind with
  | .rx => (s.desc h.dev).prioRx
  | .tx => (s.desc h.dev).prioTx

/-- The handler is in `ACTIVE`. -/
def State.isActive (s : State) (h : Handler) : Bool := s.active.any fun r => decide (r.handler = h)

/-- Every handler of the configuration. -/
def State.handlers (s : State) : List Handler :=
  (List.range s.cfg.numDev).flatMap fun d => [⟨d, .rx⟩, ⟨d, .tx⟩]

/-- The set `P` of R60(b): the line is 1 and the handler is not in `ACTIVE`. -/
def State.pending (s : State) (h : Handler) : Bool :=
  decide (h.dev < s.cfg.numDev) && s.line h && !s.isActive h

/-- The instruction whose steps a handler runs. -/
def Handler.instr (h : Handler) : Instr :=
  match h.kind with
  | .rx => .irqRx h.dev
  | .tx => .irqTx h.dev

/-! ## Which events are enabled (R60) -/

/-- R60(b): a pending handler of the smallest number, smaller than every active one's, that no model fault has stopped
for good (R265). -/
def State.entryEnabled (s : State) (h : Handler) : Bool :=
  s.pending h && !s.stopped (.engine h) && s.active.all (fun r => decide (s.prio h < s.prio r.handler)) &&
  s.handlers.all (fun g => !s.pending g || decide (s.prio h ≤ s.prio g))

/-- R60(c): no other active handler has a smaller number, and no model fault has stopped this one (R265). -/
def State.resumeEnabled (s : State) (h : Handler) : Bool :=
  s.isActive h && !s.stopped (.engine h) && s.active.all (fun r => decide (s.prio h ≤ s.prio r.handler))

/-- R60(d): `APP` steps only when `ACTIVE` is empty, and not after a model fault has stopped it. -/
def State.appFree (s : State) : Bool := s.active.isEmpty && !s.stopped .app

/-- The event may be chosen. -/
def State.enabled (s : State) : Event → Bool
  | .app => s.appFree && (s.busy || !s.host.isEmpty)
  | .port => s.appFree && s.busy && !s.host.isEmpty
  | .enter h => s.entryEnabled h
  | .resume h => s.resumeEnabled h
  | .complete b => decide (b < s.cfg.numBlocks)
  | .arrive b => decide (b < s.cfg.numBlocks)

/-- Every event of the configuration. -/
def State.events (s : State) : List Event :=
  [.app, .port] ++ s.handlers.map .enter ++ s.handlers.map .resume ++
  (List.range s.cfg.numBlocks).map .complete ++ (List.range s.cfg.numBlocks).map .arrive

/-- The event chosen next: the schedule's where it has one, else a free choice among those enabled. -/
def State.choose (s : State) : Event :=
  match s.sched with
  | e :: _ => e
  | [] =>
    let l := s.events.filter s.enabled
    l.getD (Config.freeChoice s.drawn % l.length) (.complete 0)

/-- The state once the choice is taken. -/
def State.afterChoice (s : State) : State :=
  match s.sched with
  | _ :: rest => { s with sched := rest }
  | [] => { s with drawn := s.drawn + 1 }

/-! ## The host port (R51, R52, R267) -/

/-- A store to the window at a word-aligned offset; none is a port fault. -/
def State.portWrite (s : State) (off : Nat) (v : Word) : Option State :=
  if s.busy then none
  else if off = 0 then some { s with cmd := v, cur := some .start }
  else if 0x10 ≤ off ∧ off < 0x30 then some { s with arg := s.arg.set v ((off - 0x10) / 4) }
  else none

/-- A load from the window at a word-aligned offset; none is a port fault. -/
def State.portRead (s : State) (off : Nat) : Option Word :=
  if off = 0 then some s.cmd
  else if off = 4 then some s.status
  else if 0x10 ≤ off ∧ off < 0x30 then some (s.arg.get ((off - 0x10) / 4))
  else if 0x30 ≤ off ∧ off < 0x50 then (if s.busy then none else some (s.res.get ((off - 0x30) / 4)))
  else none

/-- One host access (R52): 32 bits wide, aligned, to a register with that direction; anything else in the window is
`F_PORT` and changes no register. DESIGN CHOICE, safe (notes/assumptions/12.md): whether an access is one to the window
is decided by its start address alone, so one that starts below `CANQ_BASE` and reaches into the window, which the spec
names nowhere, is `outsideWindow`, and one that starts inside and reaches beyond is `F_PORT`. -/
def portAccess (a : PortAccess) (s : State) : Result :=
  if a.addr < s.cfg.canqBase ∨ s.cfg.canqBase + 0x100 ≤ a.addr then .fault .outsideWindow
  else
    let off := a.addr - s.cfg.canqBase
    if a.width ≠ 32 ∨ off % 4 ≠ 0 then .next (s.raise .app (.port a.addr a.width))
    else if a.write then
      match s.portWrite off a.value with
      | some t => .next t
      | none => .next (s.raise .app (.port a.addr a.width))
    else
      match s.portRead off with
      | some v => .next { s with readData := v }
      | none => .next (s.raise .app (.port a.addr a.width))

/-- The host program's next operation: an access, or one load of `STATUS` of the wait of R87, which stays in the queue
while `BUSY` is 1. -/
def hostStep (s : State) : Result :=
  match s.host with
  | [] => .next s
  | .access a :: rest => portAccess a { s with host := rest }
  | .poll :: rest => .next { s with readData := s.status, host := if s.busy then s.host else rest }

/-! ## What an event does -/

/-- The next step of the command in progress: the command is the one `CMD` holds, decoded (R72); a word that selects no
row ends with `ERR_ILLEGAL`. -/
def commandStep (s : State) : Result :=
  match decode s.cmd with
  | .ok i => exec i s
  | .error _ => .next (s.finish .errIllegal [])

/-- The effect of a chosen event. -/
def runEvent (e : Event) (s : State) : Result :=
  match e with
  | .app => if s.busy then commandStep s else hostStep s
  | .port => hostStep s
  | .enter h => exec h.instr s
  | .resume h => exec h.instr s
  | .complete b => .next (busComplete b s)
  | .arrive b => .next (busArrive b s)

/-- The chosen event's effect where it is enabled; a schedule's entry that is not enabled passes with no effect. -/
def takeEvent (e : Event) (s : State) : Result := if s.enabled e then runEvent e s else .next s

/-- The command word `w` stands in `CMD`, accepted, and `APP` is chosen next with nothing before it. -/
def State.placeWord (s : State) (w : Word) : State :=
  { s with
    cmd := w, cur := some .start, active := [], sched := .app :: s.sched
    faults := s.faults.filter fun r => decide (r.agent ≠ .app) }

end Machine
end Sys2Proof
end

