-- ==== Sys2Proof/Machine/Step.lean ====
section
/-!
DEFINITION. One step of the machine: one atomic step of one agent (spec/20_memory.md R60, R61), and where an
instruction stands before it runs. CANQ fetches no instruction (spec/10_state.md R22): a command is the word in `CMD`,
put there by a host store (spec/30_encoding.md R70).
-/

namespace Sys2Proof
namespace Machine

/-- One atomic step. A configuration that is not admitted has no run (R268). -/
def step (s : State) : Host.Outcome State Fault Refusal :=
  if s.cfg.admitted then takeEvent s.choose s.afterChoice else .refused .badConfiguration

/-- The state with the command word accepted into `CMD`, so that the very next step decodes and runs it
(notes/assumptions/4.md). -/
def State.withFetchWord (s : State) (nbits w : Nat) : State := s.placeWord (tableWord nbits w)

end Machine
end Sys2Proof
end

