-- ==== Sys2Proof/Safety.lean ====
section
/-!
DEFINITION. What counts as a safe run: the invariant every run from reset keeps, what a clean fault record is, and which
runs are fair (spec/45_irq.md R251).
-/

namespace Sys2Proof

/-- The device an instruction names; 0 for `BT_SOLVE`, which names none. -/
def Instr.deviceOf : Instr → Nat
  | .rbIsEmpty d _ => d
  | .rbIsFull d _ => d
  | .rbCount d _ => d
  | .rbPush d _ => d
  | .rbPeek d _ => d
  | .rbPop d _ => d
  | .btSolve => 0
  | .fltConfigure d _ => d
  | .fltMask32Std d _ => d
  | .fltMask32Ext d _ => d
  | .fltList32Std d _ => d
  | .fltList32Ext d _ => d
  | .fltMask16 d _ => d
  | .fltList16 d _ => d
  | .fltAcceptAll d => d
  | .fltEnable d _ => d
  | .fltDisable d _ => d
  | .fltClearAll d => d
  | .fltRead d _ => d
  | .devOpen d => d
  | .devBegin d => d
  | .setBaudrate d => d
  | .devClose d => d
  | .write d => d
  | .availableForWrite d => d
  | .available d => d
  | .peek d => d
  | .read d => d
  | .getError d => d
  | .irqRx d => d
  | .irqTx d => d

/-- The ring an instruction pushes to: the RX engine produces on the receive ring, `APP` on the transmit ring (R100). -/
def Instr.pushRing (i : Instr) : Machine.RingRef :=
  match i with
  | .irqRx d => ⟨d, .rx⟩
  | i => ⟨i.deviceOf, .tx⟩

/-- The ring an instruction peeks and pops: the TX engine consumes the transmit ring, `APP` the receive ring (R100). -/
def Instr.popRing (i : Instr) : Machine.RingRef :=
  match i with
  | .irqTx d => ⟨d, .tx⟩
  | i => ⟨i.deviceOf, .rx⟩

namespace Machine

/-! ## The parts of the invariant -/

/-- Every table of the state has the size its configuration gives it (R6, R24, R29). -/
def State.Sized (s : State) : Prop :=
  s.dev.length = s.cfg.numDev ∧ s.blk.length = s.cfg.numBlocks ∧ s.flt.length = s.cfg.numFarrays ∧
  ∀ a < s.cfg.numFarrays, (s.array a).banks.length = s.cfg.numBanks a

/-- The registry invariant: a device is out of UNINIT exactly when its block is claimed and it is the owner (R190). -/
def State.RegistryOk (s : State) : Prop :=
  ∀ d < s.cfg.numDev,
    (s.device d).st ≠ .uninit ↔
      ((s.block (s.blockOf d)).claim = true ∧ (s.block (s.blockOf d)).owner = d)

/-- `WP[a]` is 1 between any two steps (R29, R153). -/
def State.Locked (s : State) : Prop := ∀ a < s.cfg.numFarrays, (s.array a).wp = true

/-- All sixteen bytes of slot `i` are written. -/
def Ring.SlotWritten (r : Ring) (i : Nat) : Prop := ∀ j < 16, (Memory.read r.slot (16 * i + j)).isSome = true

/-- A ring is well formed: a legal capacity, indices in range (R25), slot RAM canonical and inside the ring, and every
slot from `TAIL` up to `HEAD` written (R62, R266). -/
def Ring.Ok (r : Ring) : Prop :=
  r.cap ∈ Config.capSetTx ∧ r.head < max r.cap 1 ∧ r.tail < max r.cap 1 ∧ Memory.wf r.slot ∧
  (∀ c ∈ r.slot, c.1 < 16 * r.cap) ∧ ∀ i < r.count, r.SlotWritten ((r.tail + i) % r.cap)

/-- The rings, enables and lifecycle of one device fit together (R192, R193, R195): no ring while UNINIT, a receive ring
otherwise, and no interrupt enabled unless RUNNING. -/
def DevState.Ok (x : DevState) : Prop :=
  x.rxr.Ok ∧ x.txr.Ok ∧ (x.st = .uninit → x.rxr = Ring.unallocated ∧ x.txr = Ring.unallocated) ∧
  (x.st ≠ .uninit → x.rxr.cap ∈ Config.capSetRx) ∧ (x.st ≠ .running → x.rxIe = false ∧ x.txIe = false)

/-- Every device is well formed. -/
def State.DevicesOk (s : State) : Prop := ∀ d < s.cfg.numDev, (s.device d).Ok

/-- No device of block `b` is RUNNING. -/
def State.Idle (s : State) (b : Nat) : Prop :=
  ∀ d < s.cfg.numDev, s.blockOf d = b → (s.device d).st ≠ .running

/-- Mailboxes and FIFO hold no more than they can (R32), and a block with no RUNNING device has both empty and its
controller in RESET (R195, R250, R281). -/
def State.BlocksOk (s : State) : Prop :=
  ∀ b < s.cfg.numBlocks,
    (s.block b).mbox.length ≤ s.cfg.mboxCount ∧ (s.block b).rxfifo.length ≤ s.cfg.rxFifoDepth ∧
    (s.Idle b → (s.block b).mbox = [] ∧ (s.block b).rxfifo = [] ∧ (s.block b).hwMode = .reset)

/-- The banks of a block with no RUNNING device are clear: it accepts nothing (R166, R193, R282). -/
def State.BanksOk (s : State) : Prop :=
  ∀ d < s.cfg.numDev, s.Idle (s.blockOf d) →
    ∀ k, (s.desc d).firstBank ≤ k → k ≤ (s.desc d).maxBank → s.bank (s.farrayOf d) k = Bank.reset

/-- The position is one of the instruction's steps (R110 to R201, R232, R233). -/
def Pos.isStepOf : Pos → Instr → Bool
  | .query, .rbIsEmpty _ _ => true
  | .query, .rbIsFull _ _ => true
  | .query, .rbCount _ _ => true
  | .pushCheck _, .rbPush _ _ => true
  | .pushFill _ _, .rbPush _ _ => true
  | .pushPublish _, .rbPush _ _ => true
  | .finishBool _, .rbPush _ _ => true
  | .peekCheck, .rbPeek _ _ => true
  | .peekRead _, .rbPeek _ _ => true
  | .finishFrame _, .rbPeek _ _ => true
  | .popCheck _, .rbPop _ _ => true
  | .popAdvance _ _, .rbPop _ _ => true
  | .finishBool _, .rbPop _ _ => true
  | .testEmpty _, .write _ => true
  | .direct _, .write _ => true
  | .directDone, .write _ => true
  | .noQueue, .write _ => true
  | .pushCheck _, .write _ => true
  | .pushFill _ _, .write _ => true
  | .pushPublish _, .write _ => true
  | .finishBool _, .write _ => true
  | .mask, .peek _ => true
  | .peekCheck, .peek _ => true
  | .peekRead _, .peek _ => true
  | .finishFrame _, .peek _ => true
  | .mask, .read _ => true
  | .peekCheck, .read _ => true
  | .peekRead _, .read _ => true
  | .popCheck _, .read _ => true
  | .popAdvance _ _, .read _ => true
  | .finishFrame _, .read _ => true
  | .backPressure, .irqRx _ => true
  | .receive, .irqRx _ => true
  | .pushCheck _, .irqRx _ => true
  | .pushFill _ _, .irqRx _ => true
  | .pushPublish _, .irqRx _ => true
  | .exit, .irqRx _ => true
  | .loopTest, .irqTx _ => true
  | .peekCheck, .irqTx _ => true
  | .peekRead _, .irqTx _ => true
  | .transmit _, .irqTx _ => true
  | .popCheck _, .irqTx _ => true
  | .popAdvance _ _, .irqTx _ => true
  | .exit, .irqTx _ => true
  | _, _ => false

/-- What an agent read in an earlier step of a ring primitive still holds at its next step (R117). -/
def State.ViewOk (s : State) (i : Instr) : Pos → Prop
  | .pushFill h _ => (s.ring i.pushRing).isFull = false ∧ h = (s.ring i.pushRing).head
  | .pushPublish h =>
    (s.ring i.pushRing).isFull = false ∧ h = (s.ring i.pushRing).head ∧ (s.ring i.pushRing).SlotWritten h
  | .peekRead t => (s.ring i.popRing).isEmpty = false ∧ t = (s.ring i.popRing).tail
  | .popAdvance t _ => (s.ring i.popRing).isEmpty = false ∧ t = (s.ring i.popRing).tail
  | _ => True

/-- `APP` is at the first step of a command, or at a step of the one `CMD` holds, whose device is RUNNING, with its ring
views sound. -/
def State.CommandOk (s : State) : Prop :=
  match s.cur with
  | none => True
  | some .start => True
  | some p =>
    match decode s.cmd with
    | .ok i =>
      p.isStepOf i = true ∧ i.deviceOf < s.cfg.numDev ∧ (s.device i.deviceOf).st = .running ∧ s.ViewOk i p
    | .error _ => False

/-- What a handler's position says about its FIFO and ring (R232, R233): the RX engine never finds its FIFO empty or its
ring full once it has entered, and the TX engine peeks only a ring that is not empty. -/
def State.HandlerView (s : State) (h : Handler) : Pos → Prop
  | .receive => (s.block (s.blockOf h.dev)).rxfifo ≠ [] ∧ (s.ring ⟨h.dev, .rx⟩).isFull = false
  | .pushCheck _ => (s.ring ⟨h.dev, .rx⟩).isFull = false
  | .peekCheck => (s.ring ⟨h.dev, .tx⟩).isEmpty = false
  | p => s.ViewOk h.instr p

/-- Every handler in `ACTIVE` is at one of its steps, on a RUNNING device, with sound views. -/
def State.HandlersOk (s : State) : Prop :=
  ∀ r ∈ s.active,
    r.pos.isStepOf r.handler.instr = true ∧ r.handler.dev < s.cfg.numDev ∧
    (s.device r.handler.dev).st = .running ∧ s.HandlerView r.handler r.pos

/-- Nesting follows strict priority: each handler in `ACTIVE` is more urgent than those entered before it (R270). -/
def State.NestingOk (s : State) : Prop :=
  s.active.Pairwise fun x y => s.prio y.handler < s.prio x.handler

/-- `READ` or `PEEK` on device `d` is between its masking step and its last step (R203(c)). -/
def State.readingMasked (s : State) (d : Nat) : Bool :=
  match s.cur with
  | none => false
  | some .start => false
  | some .mask => false
  | some _ =>
    match decode s.cmd with
    | .ok (.peek e) => decide (e = d)
    | .ok (.read e) => decide (e = d)
    | _ => false

/-- In that window the RX interrupt of the device is masked and its RX handler is not in progress (R203(c)). -/
def State.MaskOk (s : State) : Prop :=
  ∀ d < s.cfg.numDev, s.readingMasked d = true →
    (s.device d).rxIe = false ∧ s.isActive ⟨d, .rx⟩ = false

/-- No fault but `F_PORT`, which stops `APP` alone, is recorded (R265, R266). -/
def State.OnlyPortFaults (s : State) : Prop :=
  ∀ r ∈ s.faults, r.agent = .app ∧
    match r.fault with
    | .port _ _ => True
    | .unwritten _ _ => False
    | .internal _ => False

/-- The table of pin levels is canonical, and every pin CANQ drives is the transceiver pin of a device (R31, R204). -/
def State.PinsOk (s : State) : Prop :=
  Table.wf s.pins ∧ ∀ x ∈ s.pins, ∃ d < s.cfg.numDev, (s.desc d).trxPin = some x.1

/-- The invariant of every run from reset. -/
structure State.Inv (s : State) : Prop where
  admitted : s.cfg.admitted = true
  sized : s.Sized
  registry : s.RegistryOk
  locked : s.Locked
  devices : s.DevicesOk
  blocks : s.BlocksOk
  banks : s.BanksOk
  command : s.CommandOk
  handlers : s.HandlersOk
  nesting : s.NestingOk
  mask : s.MaskOk
  pins : s.PinsOk
  faults : s.OnlyPortFaults

/-! ## Vocabulary of the statements -/

/-- The device exists and is RUNNING: the checks of R72 and R191 pass. -/
def State.Ready (s : State) (d : Nat) : Prop := s.cfg.hasDevice d = true ∧ (s.device d).st = .running

/-- A command that needs a RUNNING device ends its first step with `ERR_ARG` where the device is absent (R72) and with
`ERR_STATE` where it is not RUNNING (R191), and changes nothing else. -/
def StartsOnRunning (i : Instr) (d : Nat) : Prop :=
  ∀ s : State, s.pos = .start →
    (s.cfg.hasDevice d = false → exec i s = .next (s.finish .errArg [])) ∧
    (s.cfg.hasDevice d = true → (s.device d).st ≠ .running → exec i s = .next (s.finish .errState []))

/-- A filter command makes the checks of R151 in its first step: device, lifecycle, owned bank. -/
def StartsOnOwnedBank (i : Instr) (d k : Nat) : Prop :=
  StartsOnRunning i d ∧
  ∀ s : State, s.pos = .start → s.Ready d → s.ownsBank d k = false → exec i s = .next (s.finish .errBank [])

/-- The two states agree on everything but the status code, the results and `CUR`. -/
def State.OnlyOutcome (s t : State) : Prop := { t with code := s.code, res := s.res, cur := s.cur } = s

/-- Byte `j` (0 to 15) of a frame in its slot: word `j / 4`, bits `8(j mod 4)+7 .. 8(j mod 4)` (R53, R55, R75). -/
def FrameWords.byteAt (w : FrameWords) (j : Nat) : Byte :=
  (match j / 4 with
   | 0 => w.fw0
   | 1 => w.fw1
   | 2 => w.fw2
   | _ => w.fw3).extractLsb' (8 * (j % 4)) 8

/-- Slot `h` of ring `ref` now holds the frame words, and nothing else has changed but the position of the agent: every
byte outside the sixteen from `16·h` on reads as before, the indices stand, and so do the other rings, the other fields
of every device and the rest of the state. -/
def State.StoresFrame (s t : State) (ref : RingRef) (h : Nat) (w : FrameWords) : Prop :=
  (∀ j < 16, Memory.read (t.ring ref).slot (16 * h + j) = some (w.byteAt j)) ∧
  (∀ a, a < 16 * h ∨ 16 * h + 16 ≤ a → Memory.read (t.ring ref).slot a = Memory.read (s.ring ref).slot a) ∧
  (t.ring ref).cap = (s.ring ref).cap ∧ (t.ring ref).head = (s.ring ref).head ∧ (t.ring ref).tail = (s.ring ref).tail ∧
  (∀ other, other ≠ ref → t.ring other = s.ring other) ∧
  (∀ e, { t.device e with rxr := (s.device e).rxr, txr := (s.device e).txr } = s.device e) ∧
  { t with dev := s.dev, cur := s.cur, active := s.active } = s

/-- The frame words in the occupied slots of a ring, oldest first. -/
def Ring.contents (r : Ring) : List (Except SlotError FrameWords) :=
  (List.range r.count).map fun i => r.readSlot ((r.tail + i) % r.cap)

/-- Replace the whole command port: `CMD`, `STATUS`, `ARG`, `RES`, `CUR`. -/
def State.withPort (s : State) (cmd : Word) (code : StatusCode) (arg res : Words8) (cur : Option Pos) : State :=
  { s with cmd := cmd, code := code, arg := arg, res := res, cur := cur }

/-- The devices but `d` are unchanged. -/
def State.OtherDevices (s t : State) (d : Nat) : Prop := ∀ e, e ≠ d → t.device e = s.device e

/-- The pin of device `d`, where it has one, is driven to `v`, and every other pin stands; so `TRX` of each device with
that pin is `v`, and `TRX` of each other device stands (R31, R204). -/
def State.PinDriven (s t : State) (d : Nat) (v : Bool) : Prop :=
  (∀ p, t.pinLevel p = if (s.desc d).trxPin = some p then (if v = true then .high else .low) else s.pinLevel p) ∧
  ∀ e, t.trx e =
    if (s.desc d).trxPin ≠ none ∧ (s.desc e).trxPin = (s.desc d).trxPin then (if v = true then .high else .low)
    else s.trx e

/-- The blocks but `b` are unchanged. -/
def State.OtherBlocks (s t : State) (b : Nat) : Prop := ∀ c, c ≠ b → t.block c = s.block c

/-- Bank `k` of array `a` holds `x`, its array is locked, and no other bank and no other array has changed. -/
def State.BankBecomes (s t : State) (a k : Nat) (x : Bank) : Prop :=
  t.bank a k = x ∧ (t.array a).wp = true ∧ (∀ a' k', a' ≠ a ∨ k' ≠ k → t.bank a' k' = s.bank a' k') ∧
  ∀ a', a' ≠ a → t.array a' = s.array a'

/-- A bank-programming command completed: the bank holds `x`, the command ended `OK` with the results, and nothing else
has changed. -/
def State.Programmed (s t : State) (a k : Nat) (x : Bank) (results : List Word) : Prop :=
  s.BankBecomes t a k x ∧ t.code = .ok ∧ t.res = Words8.ofList results ∧ t.cur = none ∧
  { t with flt := s.flt, code := s.code, res := s.res, cur := s.cur } = s

/-- The owned banks of device `d` are clear, its array is locked, and no other bank has changed. -/
def State.OwnedCleared (s t : State) (d : Nat) : Prop :=
  (∀ a k, t.bank a k = if a = s.farrayOf d ∧ s.ownsBank d k = true then Bank.reset else s.bank a k) ∧
  (t.array (s.farrayOf d)).wp = true ∧ ∀ a, a ≠ s.farrayOf d → t.array a = s.array a

/-- The well-sized, admitted states: every table has the size its configuration gives it. -/
def State.Fits (s : State) : Prop := s.cfg.admitted = true ∧ s.Sized

/-- The rings of device `d` are well formed. -/
def State.RingsOk (s : State) (d : Nat) : Prop := (s.ring ⟨d, .rx⟩).Ok ∧ (s.ring ⟨d, .tx⟩).Ok

/-! ## Runs -/

/-- `n` atomic steps of one instruction, with no step of another agent between them. -/
def execTimes (i : Instr) : Nat → State → Result
  | 0, s => .next s
  | n + 1, s =>
    match exec i s with
    | .next t => execTimes i n t
    | .fault r => .fault r
    | .refused r => .refused r

/-- An infinite run of the machine: one of the interleavings of R60. -/
def IsRun (r : Nat → State) : Prop := ∀ n, step (r n) = .next (r (n + 1))

/-- The event is the next step and has its effect: it is chosen, and enabled (an entry of the schedule that is not enabled
passes with no effect, notes/assumptions/3.md). -/
def State.takes (s : State) (e : Event) : Prop := s.choose = e ∧ s.enabled e = true

/-- R251(a): a handler entry that stays enabled is eventually taken. -/
def EntriesFair (r : Nat → State) : Prop :=
  ∀ h n, (∀ m, n ≤ m → (r m).enabled (.enter h) = true) → ∃ m, n ≤ m ∧ (r m).takes (.enter h)

/-- R251(b): an active handler that may step eventually steps: at whatever point it may step, that point or a later one
is its step, also where a more urgent handler is entered in between and again and again. So a handler in progress
reaches its last step (R235). -/
def HandlersFair (r : Nat → State) : Prop :=
  ∀ h n, (r n).enabled (.resume h) = true → ∃ m, n ≤ m ∧ (r m).takes (.resume h)

/-- R60(a): `BUS[b]` has a step of R240 or R241 whose guard holds. The guard of R241 is `HW_MODE[b]` = NORMAL, and that of
R240 asks for more, so one of them holds exactly then; where it does not, their steps do nothing
(`busComplete_of_not_mayStep`, `busArrive_of_not_mayStep`). DEDUCED (notes/assumptions/18.md): the guard of R60(a) is the
condition on the whole step. -/
def State.busMayStep (s : State) (b : Nat) : Bool :=
  decide (b < s.cfg.numBlocks) && decide ((s.block b).hwMode = .normal)

/-- `APP` is the only agent enabled (R251(d)): of the agents of R5 it may step (R60(d)), and no handler may enter or go on
(R60(b), (c)) and no `BUS[b]` may step (R60(a)). -/
def State.AppAlone (s : State) : Prop :=
  s.enabled .app = true ∧ (∀ h, s.enabled (.enter h) = false ∧ s.enabled (.resume h) = false) ∧
  ∀ b, s.busMayStep b = false

/-- R251(d): `APP` is guaranteed a step only where it is the only agent enabled, and stays it until it steps. So arrivals
may keep `APP` from stepping for ever (R251(c)), as re-entering handlers may (R284). DESIGN CHOICE
(notes/assumptions/18.md): the step guaranteed is the one R60(d) names, the next step of `CUR` or, where `CUR` is none, the
next port access, so a port access while `BUSY` is 1 (notes/assumptions/7.md) does not count as it. -/
def AppFair (r : Nat → State) : Prop :=
  ∀ n, (∀ m, n ≤ m → (r m).AppAlone) → ∃ m, n ≤ m ∧ (r m).takes .app

/-- The runs of R251. `BUS[b]` has no obligation (R251(c)); `step` itself is not fair (notes/assumptions/18.md). -/
structure FairRun (r : Nat → State) : Prop where
  run : IsRun r
  entries : EntriesFair r
  handlers : HandlersFair r
  app : AppFair r

end Machine
end Sys2Proof
end

