-- ==== Sys2Proof/Certificates/Slice0/Obligations.lean ====
section
/-!
DEFINITION. The statements for the provers: what the rules of spec/ say the machine does. A statement over a state `s`
holds for every state, also one that no run reaches, unless a hypothesis says otherwise; `s.Fits` says that the
configuration is admitted and the tables have its sizes, `s.Inv` is the invariant of Safety.lean.
-/

open Sys2Proof Sys2Proof.Machine

/-! ## Encoding and decoding (30_encoding.md) -/

/-- R70, R72, R73: for every row of the opcode table with an opcode, a command word written out from the rule's fields
(`OPC` in 7:0, `DEV` in 11:8, `RING` in 12, `BANK` in 20:16) decodes to that row's command; a field the format does not
use and an opcode of no row are rejected. -/
def Obligations.SampleWords : Prop :=
  (decode 0x00000201 = .ok (.rbIsEmpty 2 .rx) ∧ decode 0x00001002 = .ok (.rbIsFull 0 .tx) ∧
   decode 0x00001303 = .ok (.rbCount 3 .tx) ∧ decode 0x00001004 = .ok (.rbPush 0 .tx) ∧
   decode 0x00000F05 = .ok (.rbPeek 15 .rx) ∧ decode 0x00000106 = .ok (.rbPop 1 .rx)) ∧
  decode 0x00000010 = .ok .btSolve ∧
  (decode 0x00030020 = .ok (.fltConfigure 0 3) ∧ decode 0x000E0221 = .ok (.fltMask32Std 2 14) ∧
   decode 0x00010022 = .ok (.fltMask32Ext 0 1) ∧ decode 0x00020023 = .ok (.fltList32Std 0 2) ∧
   decode 0x00040424 = .ok (.fltList32Ext 4 4) ∧ decode 0x00050025 = .ok (.fltMask16 0 5) ∧
   decode 0x00060026 = .ok (.fltList16 0 6) ∧ decode 0x00000227 = .ok (.fltAcceptAll 2) ∧
   decode 0x001F0028 = .ok (.fltEnable 0 31) ∧ decode 0x00010029 = .ok (.fltDisable 0 1) ∧
   decode 0x0000022A = .ok (.fltClearAll 2) ∧ decode 0x0005002B = .ok (.fltRead 0 5)) ∧
  (decode 0x00000230 = .ok (.devOpen 2) ∧ decode 0x00000F31 = .ok (.devBegin 15) ∧
   decode 0x00000232 = .ok (.setBaudrate 2) ∧ decode 0x00000233 = .ok (.devClose 2) ∧
   decode 0x00000034 = .ok (.write 0) ∧ decode 0x00000135 = .ok (.availableForWrite 1) ∧
   decode 0x00000036 = .ok (.available 0) ∧ decode 0x00000337 = .ok (.peek 3) ∧ decode 0x00000038 = .ok (.read 0) ∧
   decode 0x00000239 = .ok (.getError 2)) ∧
  decode 0x00000110 = .error .unusedField ∧ decode 0x0000002C = .error .noRow

/-- R70 to R73: decoding the word of a well-formed command gives the command back, with every field at every value; a word
that decodes is the word of the command it decodes to, which is well formed, so no two words decode to one command; the
instructions without a word are the engine handlers. -/
def Obligations.DecodeEncodeAgree : Prop :=
  (∀ i w, i.wf = true → encode i = some w → decode w = .ok i) ∧
  (∀ w i, decode w = .ok i → i.wf = true ∧ encode i = some w) ∧
  ∀ i, encode i = none ↔ i.format = .irq

/-- R84: an illegal opcode, a reserved bit, or a field the row's format does not use rejects the word, whatever its other
bits; and a command whose word is rejected ends at its first step with `ERR_ILLEGAL`, results 0, and no other effect.
That `APP` steps next is said by the model's schedule (notes/assumptions/3.md). -/
def Obligations.IllegalWords : Prop :=
  (∀ w : Word,
    (w.toNat % 256 = 0 ∨ (0x07 ≤ w.toNat % 256 ∧ w.toNat % 256 ≤ 0x0F) ∨
     (0x11 ≤ w.toNat % 256 ∧ w.toNat % 256 ≤ 0x1F) ∨ (0x2C ≤ w.toNat % 256 ∧ w.toNat % 256 ≤ 0x2F) ∨
     0x3A ≤ w.toNat % 256) → decode w = .error .noRow) ∧
  (∀ w : Word, w &&& 0xFFE0E000 ≠ 0 → ∃ r, decode w = .error r) ∧
  (∀ w i, decode w = .ok i →
    (i.format ≠ .cmdR → ringField w = .rx) ∧ (i.format ≠ .cmdB → bankField w = 0) ∧
    (i.format = .cmdN → devField w = 0) ∧ i.format ≠ .irq) ∧
  ∀ (s : State) (rest : List Event) (r : Reject), s.cfg.admitted = true → s.sched = .app :: rest → s.active = [] →
    s.stopped .app = false → s.cur = some .start → decode s.cmd = .error r →
    step s = .next { s with sched := rest, code := .errIllegal, res := Words8.zero, cur := none }

/-! ## Steps, scheduling, the host port (20_memory.md, 10_state.md) -/

/-- A step of `APP` runs the instruction that `CMD` holds: the state changes as `exec` says, after the choice is taken from
the schedule; the same where a word is placed by `withFetchWord`. R231: the entry step and the later steps of a handler,
where the event is chosen and enabled, run the handler. The schedule and the placing of a word are the model's
(notes/assumptions/3.md, 4.md). -/
def Obligations.StepRunsInstruction : Prop :=
  (∀ (s : State) (rest : List Event) (i : Instr), s.cfg.admitted = true → s.sched = .app :: rest → s.active = [] →
    s.stopped .app = false → s.cur ≠ none → decode s.cmd = .ok i → step s = exec i { s with sched := rest }) ∧
  (∀ (s : State) (nbits w : Nat) (i : Instr), s.cfg.admitted = true → decodeTableWord nbits w = some i →
    step (s.withFetchWord nbits w) =
      exec i { s with cmd := tableWord nbits w, cur := some .start, active := [],
                      faults := s.faults.filter fun r => decide (r.agent ≠ .app) }) ∧
  ∀ (s : State) (rest : List Event) (h : Handler), s.cfg.admitted = true →
    (s.sched = .enter h :: rest → s.entryEnabled h = true → step s = exec h.instr { s with sched := rest }) ∧
    (s.sched = .resume h :: rest → s.resumeEnabled h = true → step s = exec h.instr { s with sched := rest })

/-- R60, with R33 and R234: which events are enabled, in the rule's words, over lines that are RUNNING, enabled, and the
FIFO not empty or a mailbox free, and over the descriptors' priority numbers; an agent that a model fault has stopped
takes no step (R265). The next event is one of those enabled, any of them: the model reads the choice from its schedule
or a free value (notes/assumptions/3.md). A port access while a command is in progress is the model's event `port`, of
`APP` under the same conditions (notes/assumptions/7.md). -/
def Obligations.WhoMayStep : Prop :=
  ∀ s : State,
    (∀ d, s.line ⟨d, .rx⟩ = true ↔
      (s.device d).st = .running ∧ (s.device d).rxIe = true ∧ (s.block (s.blockOf d)).rxfifo ≠ []) ∧
    (∀ d, s.line ⟨d, .tx⟩ = true ↔
      (s.device d).st = .running ∧ (s.device d).txIe = true ∧ (s.block (s.blockOf d)).mbox.length < s.cfg.mboxCount) ∧
    (∀ d, s.prio ⟨d, .rx⟩ = (s.cfg.descOf d).prioRx ∧ s.prio ⟨d, .tx⟩ = (s.cfg.descOf d).prioTx) ∧
    (∀ h, s.enabled (.enter h) = true ↔
      (h.dev < s.cfg.numDev ∧ s.line h = true ∧ s.isActive h = false) ∧ s.stopped (.engine h) = false ∧
      (∀ r ∈ s.active, s.prio h < s.prio r.handler) ∧
      ∀ g : Handler, g.dev < s.cfg.numDev → s.line g = true → s.isActive g = false → s.prio h ≤ s.prio g) ∧
    (∀ h, s.enabled (.resume h) = true ↔
      s.isActive h = true ∧ s.stopped (.engine h) = false ∧ ∀ r ∈ s.active, s.prio h ≤ s.prio r.handler) ∧
    (s.enabled .app = true ↔ s.active = [] ∧ s.stopped .app = false ∧ (s.cur ≠ none ∨ s.host ≠ [])) ∧
    (s.enabled .port = true ↔ s.active = [] ∧ s.stopped .app = false ∧ s.cur ≠ none ∧ s.host ≠ []) ∧
    (∀ b, (s.enabled (.complete b) = true ↔ b < s.cfg.numBlocks) ∧ (s.enabled (.arrive b) = true ↔ b < s.cfg.numBlocks)) ∧
    (s.cfg.admitted = true → s.sched = [] → s.enabled s.choose = true) ∧
    (∀ e rest, s.cfg.admitted = true → s.sched = e :: rest → s.enabled e = true →
      step s = runEvent e { s with sched := rest })

/-- R52, R267: every forbidden access in the window records `F_PORT` with the access's address and width, changes no
register, and `APP` takes no further step. -/
def Obligations.PortFaults : Prop :=
  ∀ (s : State) (a : PortAccess) (off : Nat), a.addr = s.cfg.canqBase + off → off < 0x100 →
    (a.width ≠ 32 ∨ off % 4 ≠ 0 ∨ off = 0x08 ∨ off = 0x0C ∨ 0x50 ≤ off ∨
     (a.write = true ∧ (off = 0x04 ∨ (0x30 ≤ off ∧ off < 0x50))) ∨
     (a.write = true ∧ s.cur ≠ none ∧ (off = 0x00 ∨ (0x10 ≤ off ∧ off < 0x30))) ∨
     (a.write = false ∧ s.cur ≠ none ∧ 0x30 ≤ off ∧ off < 0x50)) →
    ∃ t, portAccess a s = .next t ∧ (⟨.port a.addr a.width, .app⟩ : FaultRecord) ∈ t.faults ∧
      (∀ r ∈ s.faults, r ∈ t.faults) ∧ { t with faults := s.faults } = s ∧
      t.enabled .app = false ∧ t.enabled .port = false

/-- R51, R58, R70, R74: the permitted accesses. A load returns `CMD`, `STATUS` (code in 7:0, `BUSY` in bit 8, 0 above), an
`ARG` or a `RES` register and has no other effect; a store to `ARGi` stores the value only; a store to `CMD` stores the
word and starts the command, with `BUSY` = 1 and `CUR` at its first step. Each status has its code of R74. R60(d), R87:
the step of the host program takes the first operation of its queue and makes that access; a wait loads `STATUS` and
leaves the queue only where `BUSY` is 0. `readData`, where a loaded value goes, and the queue `host` are the model's own
(notes/assumptions/4.md, 8.md), and so is the step while a command is in progress (notes/assumptions/7.md). -/
def Obligations.PortRegisters : Prop :=
  (∀ (s : State) (a : PortAccess) (off : Nat), a.addr = s.cfg.canqBase + off → off < 0x100 → a.width = 32 →
    (a.write = false →
      (off = 0x00 → portAccess a s = .next { s with readData := s.cmd }) ∧
      (off = 0x04 → ∃ v : Word, portAccess a s = .next { s with readData := v } ∧
        v.toNat = s.code.byte.toNat + 256 * (if s.cur = none then 0 else 1)) ∧
      (∀ i, i < 8 → off = 0x10 + 4 * i → portAccess a s = .next { s with readData := s.arg.get i }) ∧
      (∀ i, i < 8 → off = 0x30 + 4 * i → s.cur = none → portAccess a s = .next { s with readData := s.res.get i })) ∧
    (a.write = true → s.cur = none →
      (off = 0x00 → portAccess a s = .next { s with cmd := a.value, cur := some .start }) ∧
      (∀ i, i < 8 → off = 0x10 + 4 * i →
        ∃ t, portAccess a s = .next t ∧ t.arg.get i = a.value ∧ (∀ j, j < 8 → j ≠ i → t.arg.get j = s.arg.get j) ∧
          { t with arg := s.arg } = s))) ∧
  (StatusCode.ok.byte = 0x00 ∧ StatusCode.full.byte = 0x01 ∧ StatusCode.empty.byte = 0x02 ∧
   StatusCode.errBaud.byte = 0x10 ∧ StatusCode.errClaimed.byte = 0x11 ∧ StatusCode.errRange.byte = 0x12 ∧
   StatusCode.errBank.byte = 0x13 ∧ StatusCode.errCap.byte = 0x14 ∧ StatusCode.errArg.byte = 0x15 ∧
   StatusCode.errHw.byte = 0x16 ∧ StatusCode.errState.byte = 0x20 ∧ StatusCode.errOwner.byte = 0x21 ∧
   StatusCode.errIllegal.byte = 0x30) ∧
  ∀ (s : State) (rest : List Event) (ops : List HostOp), s.cfg.admitted = true → s.active = [] → s.stopped .app = false →
    ((s.cur = none ∧ s.sched = .app :: rest) ∨ (s.cur ≠ none ∧ s.sched = .port :: rest)) →
    (∀ a, s.host = .access a :: ops → step s = portAccess a { s with sched := rest, host := ops }) ∧
    (s.host = .poll :: ops → ∃ v : Word, v.toNat = s.code.byte.toNat + 256 * (if s.cur = none then 0 else 1) ∧
      step s = .next { s with sched := rest, readData := v, host := if s.cur = none then ops else s.host })

/-- R191, with the device check of R72 before it: a command whose device is absent ends with `ERR_ARG`; each command runs
only in its lifecycle states and otherwise ends with `ERR_STATE` before any other effect; `OPEN` is refused through the
claim, with `ERR_CLAIMED`, wherever the registry invariant of R190 holds. -/
def Obligations.CommandChecks : Prop :=
  ∀ (i : Instr) (s : State), s.pos = .start →
    ((i.format = .cmdD ∨ i.format = .cmdR ∨ i.format = .cmdB) →
      (i.deviceOf ≥ s.cfg.numDev ∨ (s.desc i.deviceOf).present = false) →
      exec i s = .next { s with code := .errArg, res := Words8.zero, cur := none }) ∧
    (s.cfg.hasDevice i.deviceOf = true →
      (i.format ≠ .irq → i ≠ .btSolve → (∀ d, i ≠ .devOpen d) → (∀ d, i ≠ .devBegin d) → (∀ d, i ≠ .devClose d) →
        (s.device i.deviceOf).st ≠ .running → exec i s = .next (s.finish .errState [])) ∧
      (∀ d, i = .devBegin d → (s.device d).st ≠ .configured → exec i s = .next (s.finish .errState [])) ∧
      (∀ d, i = .devClose d → (s.device d).st = .uninit → exec i s = .next (s.finish .errState [])) ∧
      (∀ d, i = .devOpen d → s.RegistryOk → (s.device d).st ≠ .uninit →
        (s.arg.get 0).toNat ∈ Config.capSetRx → (s.arg.get 1).toNat ∈ Config.capSetTx →
        exec i s = .next (s.finish .errClaimed [])))

/-- R6, R7, R8, R67, R268: a configuration is admitted exactly when every parameter is in the range of R6, one core runs
it, every descriptor's `block`, `farray` and `pclk` are in the ranges of R7, and its descriptors meet R8(a) to (f); a
state of any other configuration has no step. R268 lists R6, R8 and `MULTICORE` only: that a configuration outside R7's
ranges is refused too, and that a descriptor meets R7 and R8 also where its device is not present, is the model's reading
(notes/assumptions/14.md). -/
def Obligations.AdmittedConfigurations : Prop :=
  (∀ c : Config, c.admitted = true ↔
    (1 ≤ c.numDev ∧ c.numDev ≤ 16 ∧ 1 ≤ c.numBlocks ∧ c.numBlocks ≤ 3 ∧ 1 ≤ c.numFarrays ∧ c.numFarrays ≤ 3 ∧
     (∀ a < c.numFarrays, 1 ≤ c.numBanks a ∧ c.numBanks a ≤ 32 ∧ c.split a ≤ c.numBanks a) ∧
     1 ≤ c.mboxCount ∧ c.mboxCount ≤ 8 ∧ 1 ≤ c.rxFifoDepth ∧ c.rxFifoDepth ≤ 8 ∧ c.canqBase % 0x100 = 0 ∧
     c.multicore = false ∧
     ∀ d < c.numDev, (c.descOf d).block < c.numBlocks ∧ (c.descOf d).farray < c.numFarrays ∧
       1 ≤ (c.descOf d).pclk ∧ (c.descOf d).pclk < 2 ^ 32) ∧
    (∀ d < c.numDev, ∀ e < c.numDev, (c.descOf d).block ≠ (c.descOf e).block →
      (c.descOf d).farray = (c.descOf e).farray →
      ∀ k, ¬ ((c.descOf d).firstBank ≤ k ∧ k ≤ (c.descOf d).maxBank ∧
              (c.descOf e).firstBank ≤ k ∧ k ≤ (c.descOf e).maxBank)) ∧
    (∀ d < c.numDev, ∀ e < c.numDev, (c.descOf d).role = .primary → (c.descOf e).role = .secondary →
      (c.descOf d).farray = (c.descOf e).farray →
      (c.descOf d).firstBank = 0 ∧ (c.descOf d).maxBank + 1 = c.split (c.descOf d).farray ∧
      (c.descOf e).firstBank = c.split (c.descOf d).farray ∧
      (c.descOf e).maxBank + 1 = c.numBanks (c.descOf d).farray) ∧
    (∀ d < c.numDev, (c.descOf d).role = .standalone →
      (c.descOf d).firstBank = 0 ∧ (c.descOf d).maxBank + 1 = c.numBanks (c.descOf d).farray) ∧
    (∀ d < c.numDev, (c.descOf d).firstBank ≤ (c.descOf d).maxBank ∧
      (c.descOf d).maxBank < c.numBanks (c.descOf d).farray) ∧
    (∀ d < c.numDev, ∀ e < c.numDev, (c.descOf d).block = (c.descOf e).block →
      (c.descOf d).farray = (c.descOf e).farray ∧ (c.descOf d).role = (c.descOf e).role ∧
      (c.descOf d).firstBank = (c.descOf e).firstBank ∧ (c.descOf d).maxBank = (c.descOf e).maxBank) ∧
    (∀ d < c.numDev, ∀ e < c.numDev, (c.descOf d).block < (c.descOf e).block →
      (c.descOf d).prioRx < (c.descOf e).prioRx ∧ (c.descOf d).prioRx < (c.descOf e).prioTx ∧
      (c.descOf d).prioTx < (c.descOf e).prioRx ∧ (c.descOf d).prioTx < (c.descOf e).prioTx)) ∧
  ∀ s : State, s.cfg.admitted = false → step s = .refused .badConfiguration

/-! ## Ring commands (41_ring.md) -/

/-- R110, R111, R112, with the formulas of R102 to R104 over `CAP`, `HEAD` and `TAIL`: the check step, then the query
step, which writes the status and the results and nothing else. -/
def Obligations.RingQueries : Prop :=
  ∀ (d : Nat) (sel : RingSel),
    StartsOnRunning (.rbIsEmpty d sel) d ∧ StartsOnRunning (.rbIsFull d sel) d ∧ StartsOnRunning (.rbCount d sel) d ∧
    ∀ s : State,
      (s.pos = .start → s.Ready d →
        exec (.rbIsEmpty d sel) s = .next { s with cur := some .query } ∧
        exec (.rbIsFull d sel) s = .next { s with cur := some .query } ∧
        exec (.rbCount d sel) s = .next { s with cur := some .query }) ∧
      (s.cur = some .query →
        exec (.rbIsEmpty d sel) s =
          .next { s with
            code := .ok, cur := none
            res := ⟨if (s.ring ⟨d, sel⟩).cap = 0 ∨ (s.ring ⟨d, sel⟩).head = (s.ring ⟨d, sel⟩).tail then 1 else 0,
              0, 0, 0, 0, 0, 0, 0⟩ } ∧
        exec (.rbIsFull d sel) s =
          .next { s with
            code := .ok, cur := none
            res := ⟨if (s.ring ⟨d, sel⟩).cap = 0 ∨
                ((s.ring ⟨d, sel⟩).head + 1) % (s.ring ⟨d, sel⟩).cap = (s.ring ⟨d, sel⟩).tail then 1 else 0,
              0, 0, 0, 0, 0, 0, 0⟩ } ∧
        exec (.rbCount d sel) s =
          .next { s with
            code := .ok, cur := none
            res := ⟨if (s.ring ⟨d, sel⟩).cap = 0 then 0
                else BitVec.ofNat 32 (((s.ring ⟨d, sel⟩).head + (s.ring ⟨d, sel⟩).cap - (s.ring ⟨d, sel⟩).tail) %
                  (s.ring ⟨d, sel⟩).cap),
              0, 0, 0, 0, 0, 0, 0⟩ })

/-- R113 with R105: the steps of `RB_PUSH`. A full ring writes nothing; the slot is filled before `HEAD` is published;
`TX_IE` is never written. -/
def Obligations.RbPushSteps : Prop :=
  ∀ (d : Nat), StartsOnRunning (.rbPush d .rx) d ∧ StartsOnRunning (.rbPush d .tx) d ∧
    ∀ s : State,
      (s.pos = .start → s.Ready d →
        exec (.rbPush d .rx) s = .next (s.finish .errOwner []) ∧
        (s.argFrame.valid = false → exec (.rbPush d .tx) s = .next (s.finish .errArg [])) ∧
        (s.argFrame.valid = true →
          exec (.rbPush d .tx) s = .next { s with cur := some (.pushCheck (Frame.ofWords s.argFrame)) })) ∧
      (∀ f, s.cur = some (.pushCheck f) →
        exec (.rbPush d .tx) s = .next { s with
          cur := some (if (s.ring ⟨d, .tx⟩).cap = 0 ∨
              ((s.ring ⟨d, .tx⟩).head + 1) % (s.ring ⟨d, .tx⟩).cap = (s.ring ⟨d, .tx⟩).tail then .finishBool false
            else .pushFill (s.ring ⟨d, .tx⟩).head f) }) ∧
      (∀ h f, s.cur = some (.pushFill h f) → d < s.dev.length → h < (s.ring ⟨d, .tx⟩).cap →
        ∃ t, exec (.rbPush d .tx) s = .next t ∧ t.cur = some (.pushPublish h) ∧ t.active = s.active ∧
          s.StoresFrame t ⟨d, .tx⟩ h f.words) ∧
      (∀ h, s.cur = some (.pushPublish h) → d < s.dev.length →
        ∃ t, exec (.rbPush d .tx) s = .next t ∧ t.cur = some (.finishBool true) ∧
          t.device d = { s.device d with
            txr := { (s.device d).txr with head := (h + 1) % (s.device d).txr.cap } } ∧
          s.OtherDevices t d ∧ { t with dev := s.dev, cur := s.cur } = s) ∧
      exec (.rbPush d .tx) { s with cur := some (.finishBool true) } = .next (s.finish .ok []) ∧
      exec (.rbPush d .tx) { s with cur := some (.finishBool false) } = .next (s.finish .full [])

/-- R113: an uninterrupted `RB_PUSH` of a valid frame on a ring that is not full ends `OK` after five steps, with the
frame in slot `HEAD`, `HEAD` advanced, one frame more in the ring, and nothing else changed; on a full ring it ends
`FULL` after three steps with nothing changed. -/
def Obligations.RbPushRun : Prop :=
  ∀ (d : Nat) (s : State), s.Fits → s.Ready d → (s.ring ⟨d, .tx⟩).Ok → s.pos = .start → s.argFrame.valid = true →
    ((s.ring ⟨d, .tx⟩).isFull = true → execTimes (.rbPush d .tx) 3 s = .next (s.finish .full [])) ∧
    ((s.ring ⟨d, .tx⟩).isFull = false → ∃ t, execTimes (.rbPush d .tx) 5 s = .next t ∧
      t.code = .ok ∧ t.res = Words8.zero ∧ t.cur = none ∧
      (t.ring ⟨d, .tx⟩).readSlot (s.ring ⟨d, .tx⟩).head = .ok s.argFrame ∧
      (t.ring ⟨d, .tx⟩).head = ((s.ring ⟨d, .tx⟩).head + 1) % (s.ring ⟨d, .tx⟩).cap ∧
      (t.ring ⟨d, .tx⟩).count = (s.ring ⟨d, .tx⟩).count + 1 ∧
      (∀ a, a < 16 * (s.ring ⟨d, .tx⟩).head ∨ 16 * (s.ring ⟨d, .tx⟩).head + 16 ≤ a →
        Memory.read (t.ring ⟨d, .tx⟩).slot a = Memory.read (s.ring ⟨d, .tx⟩).slot a) ∧
      { t.device d with
        txr := { (t.device d).txr with head := (s.device d).txr.head, slot := (s.device d).txr.slot } } = s.device d ∧
      s.OtherDevices t d ∧ { t with dev := s.dev, code := s.code, res := s.res, cur := s.cur } = s)

/-- R114, R115 with R106, R107: the steps of `RB_PEEK` and `RB_POP`. A peek changes no state but the position and, at the
end, the outcome; a pop advances `TAIL`, only when the ring is not empty; neither writes `RX_IE`. -/
def Obligations.RbPeekPopSteps : Prop :=
  (∀ (d : Nat), StartsOnRunning (.rbPeek d .rx) d ∧ StartsOnRunning (.rbPeek d .tx) d ∧
    ∀ s : State,
      (s.pos = .start → s.Ready d →
        exec (.rbPeek d .tx) s = .next (s.finish .errOwner []) ∧
        exec (.rbPeek d .rx) s = .next { s with cur := some .peekCheck }) ∧
      (s.cur = some .peekCheck →
        exec (.rbPeek d .rx) s = .next { s with
          cur := some (if (s.ring ⟨d, .rx⟩).cap = 0 ∨ (s.ring ⟨d, .rx⟩).head = (s.ring ⟨d, .rx⟩).tail then
            .finishFrame none else .peekRead (s.ring ⟨d, .rx⟩).tail) }) ∧
      (∀ u w, s.cur = some (.peekRead u) → (s.ring ⟨d, .rx⟩).readSlot u = .ok w →
        exec (.rbPeek d .rx) s = .next { s with cur := some (.finishFrame (some (Frame.ofWords w))) }) ∧
      exec (.rbPeek d .rx) { s with cur := some (.finishFrame none) } = .next (s.finish .empty []) ∧
      ∀ f, exec (.rbPeek d .rx) { s with cur := some (.finishFrame (some f)) } =
        .next (s.finish .ok [f.words.fw0, f.words.fw1, f.words.fw2, f.words.fw3])) ∧
  ∀ (d : Nat), StartsOnRunning (.rbPop d .rx) d ∧ StartsOnRunning (.rbPop d .tx) d ∧
    ∀ s : State,
      (s.pos = .start → s.Ready d →
        exec (.rbPop d .tx) s = .next (s.finish .errOwner []) ∧
        exec (.rbPop d .rx) s = .next { s with cur := some (.popCheck none) }) ∧
      (∀ x, s.cur = some (.popCheck x) →
        exec (.rbPop d .rx) s = .next { s with
          cur := some (if (s.ring ⟨d, .rx⟩).cap = 0 ∨ (s.ring ⟨d, .rx⟩).head = (s.ring ⟨d, .rx⟩).tail then
            .finishBool false else .popAdvance (s.ring ⟨d, .rx⟩).tail x) }) ∧
      (∀ u x, s.cur = some (.popAdvance u x) → d < s.dev.length →
        ∃ t, exec (.rbPop d .rx) s = .next t ∧ t.cur = some (.finishBool true) ∧
          t.device d = { s.device d with
            rxr := { (s.device d).rxr with tail := (u + 1) % (s.device d).rxr.cap } } ∧
          s.OtherDevices t d ∧ { t with dev := s.dev, cur := s.cur } = s) ∧
      exec (.rbPop d .rx) { s with cur := some (.finishBool true) } = .next (s.finish .ok []) ∧
      exec (.rbPop d .rx) { s with cur := some (.finishBool false) } = .next (s.finish .empty [])

/-- R114, R115: uninterrupted, on a well-formed receive ring. `RB_PEEK` gives the frame at `TAIL` and leaves the ring;
`RB_POP` removes that frame and nothing else; on an empty ring both end `EMPTY` and nothing changes. -/
def Obligations.RbPeekPopRun : Prop :=
  ∀ (d : Nat) (s : State), s.Fits → s.Ready d → (s.ring ⟨d, .rx⟩).Ok → s.pos = .start →
    ((s.ring ⟨d, .rx⟩).isEmpty = true →
      execTimes (.rbPeek d .rx) 3 s = .next (s.finish .empty []) ∧
      execTimes (.rbPop d .rx) 3 s = .next (s.finish .empty [])) ∧
    ((s.ring ⟨d, .rx⟩).isEmpty = false →
      (∃ w, (s.ring ⟨d, .rx⟩).readSlot (s.ring ⟨d, .rx⟩).tail = .ok w ∧
        execTimes (.rbPeek d .rx) 4 s = .next (s.finish .ok (Frame.ofWords w).results)) ∧
      ∃ t, execTimes (.rbPop d .rx) 4 s = .next t ∧ t.code = .ok ∧ t.res = Words8.zero ∧ t.cur = none ∧
        t.device d = { s.device d with
          rxr := { (s.device d).rxr with tail := ((s.device d).rxr.tail + 1) % (s.device d).rxr.cap } } ∧
        (t.ring ⟨d, .rx⟩).count + 1 = (s.ring ⟨d, .rx⟩).count ∧
        s.OtherDevices t d ∧ { t with dev := s.dev, code := s.code, res := s.res, cur := s.cur } = s)

/-- R101, R116: a ring of capacity 0 is empty and full, holds nothing and has no room; a ring just allocated is empty with
every byte unwritten. On a well-formed ring a push that is not refused appends its frame to the occupied slots, a pop
that is not refused removes the oldest, a peek reads the oldest, and a push is refused exactly at count `CAP - 1`. -/
def Obligations.RingFifo : Prop :=
  (∀ r : Ring, r.cap = 0 → r.isEmpty = true ∧ r.isFull = true ∧ r.count = 0 ∧ r.space = 0) ∧
  (∀ cap, cap ∈ Config.capSetTx →
    (Ring.alloc cap).Ok ∧ (Ring.alloc cap).count = 0 ∧ (Ring.alloc cap).isEmpty = true ∧
    (Ring.alloc cap).space = cap - 1 ∧ ∀ a, Memory.read (Ring.alloc cap).slot a = none) ∧
  ∀ r : Ring, r.Ok → 0 < r.cap →
    r.contents.length = r.count ∧ r.count < r.cap ∧ (r.isFull = true ↔ r.count = r.cap - 1) ∧
    (r.isEmpty = true ↔ r.count = 0) ∧ r.space = r.cap - 1 - r.count ∧
    (∀ w, r.isFull = false → ∃ r', r.fill r.head w = some r' ∧ r'.contents = r.contents ∧
      (r'.publish r.head).contents = r.contents ++ [.ok w] ∧ (r'.publish r.head).Ok) ∧
    (r.isEmpty = false → ∃ w rest, r.contents = .ok w :: rest ∧ r.readSlot r.tail = .ok w ∧
      (r.advance r.tail).contents = rest ∧ (r.advance r.tail).Ok)

/-- R53, R55: slot RAM is little-endian: a word load is the sum of its four bytes, byte `k` weighted `256^k`; a word store
then load gives the word; a store leaves every byte outside its four; a load of a byte never written is `F_UNWRITTEN`;
a misaligned or outside offset breaks the contract. -/
def Obligations.SlotWords : Prop :=
  ∀ (r : Ring) (addr : Nat),
    (¬ (addr % 4 = 0 ∧ addr + 4 ≤ 16 * r.cap) →
      r.memRead addr = .error .contract ∧ ∀ v, r.memWrite addr v = none) ∧
    (addr % 4 = 0 → addr + 4 ≤ 16 * r.cap →
      (∀ v, ∃ r', r.memWrite addr v = some r' ∧ r'.memRead addr = .ok v ∧
        { r' with slot := r.slot } = r ∧
        (∀ k < 4, Memory.read r'.slot (addr + k) = some (v.extractLsb' (8 * k) 8)) ∧
        ∀ a, a < addr ∨ addr + 4 ≤ a → Memory.read r'.slot a = Memory.read r.slot a) ∧
      (∀ b0 b1 b2 b3, Memory.read r.slot addr = some b0 → Memory.read r.slot (addr + 1) = some b1 →
        Memory.read r.slot (addr + 2) = some b2 → Memory.read r.slot (addr + 3) = some b3 →
        ∃ v, r.memRead addr = .ok v ∧
          v.toNat = b0.toNat + 256 * b1.toNat + 65536 * b2.toNat + 16777216 * b3.toNat) ∧
      ((∃ k < 4, Memory.read r.slot (addr + k) = none) → r.memRead addr = .error (.unwritten addr)))

/-- R75: the four frame words. Every frame value reads back from its words; a valid word quadruple is the words of the
frame it holds; and validity is the rule's four conditions. -/
def Obligations.FrameLayout : Prop :=
  (∀ f : Frame, Frame.ofWords f.words = f) ∧
  (∀ w : FrameWords, w.valid = true ↔
    w.fw0.toNat < 2 ^ 31 ∧ w.fw1.toNat < 16 ∧ w.fw1.toNat ≤ 8 ∧
    (w.fw0.getLsbD 29 = false → w.fw0.toNat % 2 ^ 29 ≤ 0x7FF)) ∧
  (∀ w : FrameWords, w.valid = true → (Frame.ofWords w).words = w ∧ (Frame.ofWords w).valid = true) ∧
  ∀ f : Frame,
    f.words.fw0.toNat = f.id.toNat + 2 ^ 29 * (if f.ide = .ext then 1 else 0) +
      2 ^ 30 * (if f.rtr = .remote then 1 else 0) ∧
    f.words.fw1.toNat = f.dlc.toNat ∧
    f.words.fw2.toNat = f.data.b0.toNat + 2 ^ 8 * f.data.b1.toNat + 2 ^ 16 * f.data.b2.toNat + 2 ^ 24 * f.data.b3.toNat ∧
    f.words.fw3.toNat = f.data.b4.toNat + 2 ^ 8 * f.data.b5.toNat + 2 ^ 16 * f.data.b6.toNat + 2 ^ 24 * f.data.b7.toNat

/-! ## The bit-timing solver (42_bittiming.md) -/

/-- R131, and R132 with its derived table: the search order, each quanta count of 8 to 24 once, and the segment table with
its two ties. -/
def Obligations.QuantaAndSegments : Prop :=
  qorder = [16, 15, 17, 14, 18, 13, 19, 12, 20, 11, 21, 10, 22, 9, 23, 8, 24] ∧
  (∀ q, 8 ≤ q → q ≤ 24 → qorder.count q = 1) ∧
  (List.range' 8 17).map seg1 = [6, 7, 8, 9, 10, 10, 11, 12, 13, 14, 15, 16, 17, 17, 18, 19, 20] ∧
  (List.range' 8 17).map seg2 = [1, 1, 1, 1, 1, 2, 2, 2, 2, 2, 2, 2, 2, 3, 3, 3, 3]

/-- R132, R133, R134: `solve` answers the first pair in the rule's order, clocks downward from the nominal one by 1 Hz
within `clk / 1000` and quanta in `QORDER`, that passes R133; it fails exactly when the rate is 0 or above 1,000,000 or no
pair passes. -/
def Obligations.SolverSearch : Prop :=
  ∀ baud clk : Nat,
    (solve baud clk = none ↔
      baud = 0 ∨ 1000000 < baud ∨
      ∀ dlt, dlt ≤ clk / 1000 → dlt < clk → ∀ q ∈ qorder,
        ¬ ((clk - dlt) % (baud * q) = 0 ∧ 1 ≤ (clk - dlt) / (baud * q) ∧ (clk - dlt) / (baud * q) ≤ 1024 ∧
           1 ≤ seg1 q ∧ seg1 q ≤ 16 ∧ 1 ≤ seg2 q ∧ seg2 q ≤ 8)) ∧
    ∀ r, solve baud clk = some r →
      baud ≠ 0 ∧ baud ≤ 1000000 ∧
      ∃ dlt n, dlt ≤ clk / 1000 ∧ dlt < clk ∧ n < 17 ∧ qorder[n]? = some r.q ∧
        r.c = clk - dlt ∧ r.c % (baud * r.q) = 0 ∧ r.brp = r.c / (baud * r.q) ∧ 1 ≤ r.brp ∧ r.brp ≤ 1024 ∧
        r.t1 = seg1 r.q ∧ r.t2 = seg2 r.q ∧ r.sjw = 1 ∧
        (1 ≤ r.t1 ∧ r.t1 ≤ 16) ∧ (1 ≤ r.t2 ∧ r.t2 ≤ 8) ∧
        ∀ dlt' n' q', dlt' ≤ clk / 1000 → dlt' < clk → qorder[n']? = some q' → (dlt' < dlt ∨ (dlt' = dlt ∧ n' < n)) →
          ¬ ((clk - dlt') % (baud * q') = 0 ∧ 1 ≤ (clk - dlt') / (baud * q') ∧ (clk - dlt') / (baud * q') ≤ 1024 ∧
             1 ≤ seg1 q' ∧ seg1 q' ≤ 16 ∧ 1 ≤ seg2 q' ∧ seg2 q' ≤ 8)

/-- R130, R135, R138: a successful result is in range, the rate at its clock is exact, its clock is within 0.1 % of the
nominal one and the rate at the nominal clock within a factor 1000/999, a bit has `1 + t1 + t2` quanta with the segments of
the table, its sample point is within 1 percentage point of 87.5 % exactly at 8, 15, 16 and 17 quanta, and the fields of
its timing word (R76) are the lengths less one, with reserved bits 0. -/
def Obligations.SolverProperties : Prop :=
  ∀ baud clk r, solve baud clk = some r →
    r.c = r.brp * r.q * baud ∧ clk - clk / 1000 ≤ r.c ∧ r.c ≤ clk ∧ 999 * clk ≤ 1000 * r.c ∧
    r.q = 1 + r.t1 + r.t2 ∧ r.sjw = 1 ∧ 1 ≤ r.brp ∧ r.brp ≤ 1024 ∧ 1 ≤ r.t1 ∧ r.t1 ≤ 16 ∧ 1 ≤ r.t2 ∧ r.t2 ≤ 8 ∧
    8 ≤ r.q ∧ r.q ≤ 19 ∧ r.t1 = seg1 r.q ∧ r.t2 = seg2 r.q ∧ baud ≤ clk / (r.brp * r.q) ∧
    999 * (clk / (r.brp * r.q)) ≤ 1000 * baud ∧
    ((1000 * (1 + r.t1) ≤ 885 * r.q ∧ 865 * r.q ≤ 1000 * (1 + r.t1)) ↔ (r.q = 8 ∨ r.q = 15 ∨ r.q = 16 ∨ r.q = 17)) ∧
    field r.timing 0 10 = r.brp - 1 ∧ field r.timing 10 6 = 0 ∧ field r.timing 16 4 = r.t1 - 1 ∧
    field r.timing 20 3 = r.t2 - 1 ∧ field r.timing 23 1 = 0 ∧ field r.timing 24 2 = 0 ∧ field r.timing 26 6 = 0

/-- R136, R82: `BT_SOLVE` has no lifecycle precondition, ends with `ERR_BAUD` where the solver fails, and else writes the
six results of R136; no state but the outcome changes. `RES4` is the rate at the nominal clock, as the rules say: decision
D15 has the rate at `c`, and following the rules is the model's reading (notes/assumptions/20.md). -/
def Obligations.BtSolve : Prop :=
  ∀ s : State, s.pos = .start →
    (solve (s.arg.get 0).toNat (s.arg.get 1).toNat = none → exec .btSolve s = .next (s.finish .errBaud [])) ∧
    ∀ r, solve (s.arg.get 0).toNat (s.arg.get 1).toNat = some r →
      ∃ t, exec .btSolve s = .next t ∧ t.code = .ok ∧ t.cur = none ∧ s.OnlyOutcome t ∧
        t.res.get 0 = r.timing ∧ (t.res.get 1).toNat = r.brp ∧
        field (t.res.get 2) 0 8 = r.t1 ∧ field (t.res.get 2) 8 8 = r.t2 ∧ field (t.res.get 2) 16 8 = r.sjw ∧
        field (t.res.get 2) 24 8 = r.q ∧
        (t.res.get 3).toNat = r.c ∧ (t.res.get 4).toNat = (s.arg.get 1).toNat / (r.brp * r.q) ∧
        (t.res.get 5).toNat = 1000 * (1 + r.t1) / r.q ∧ t.res.get 6 = 0 ∧ t.res.get 7 = 0

/-! ## Filter commands (43_filter.md) -/

/-- R151, R152, R167: each encoder is the rule's arithmetic on naturals, with no bit lost, for operands in the ranges of R151, and
so are the acceptance words of a valid frame; bit 0 of `W32` is 0. -/
def Obligations.FilterWords : Prop :=
  (∀ (v : Word) (rtr : Bool),
    (v.toNat ≤ 0x7FF →
      (p32s v rtr).toNat = v.toNat * 2 ^ 21 + 2 * rtr.toNat ∧ (m32s v).toNat = v.toNat * 2 ^ 21 + 4 ∧
      (p16 v rtr).toNat = v.toNat * 32 + 16 * rtr.toNat ∧ (p16 v rtr).toNat < 2 ^ 16 ∧
      (m16 v).toNat = v.toNat * 32 + 8 ∧ (m16 v).toNat < 2 ^ 16) ∧
    (v.toNat ≤ 0x1FFFFFFF →
      (p32x v rtr).toNat = v.toNat * 8 + 4 + 2 * rtr.toNat ∧ (m32x v).toNat = v.toNat * 8 + 4)) ∧
  ∀ f : Frame, f.valid = true →
    (f.ide = .std →
      f.w32.toNat = f.id.toNat * 2 ^ 21 + (if f.rtr = .remote then 2 else 0) ∧
      f.h16.toNat = f.id.toNat * 32 + (if f.rtr = .remote then 16 else 0)) ∧
    (f.ide = .ext →
      f.w32.toNat = f.id.toNat * 8 + 4 + (if f.rtr = .remote then 2 else 0) ∧
      f.h16.toNat = f.id.toNat / 2 ^ 18 * 32 + (if f.rtr = .remote then 16 else 0) + 8 + f.id.toNat / 2 ^ 15 % 8) ∧
    f.w32.getLsbD 0 = false

/-- R168: a bank matches a frame. An inactive bank matches nothing; in mask mode a mask bit of 1 means "must match" and 0
"don't care", in either half of a 16-bit bank; in list mode the frame equals one of the entries. -/
def Obligations.BankMatch : Prop :=
  ∀ (x : Bank) (f : Frame),
    (x.fa = false → x.accepts f = false) ∧
    (x.fa = true → x.fm = false → x.fs = true →
      (x.accepts f = true ↔ ∀ i < 32, x.fr2.getLsbD i = true → f.w32.getLsbD i = x.fr1.getLsbD i)) ∧
    (x.fa = true → x.fm = true → x.fs = true → (x.accepts f = true ↔ f.w32 = x.fr1 ∨ f.w32 = x.fr2)) ∧
    (x.fa = true → x.fm = false → x.fs = false →
      (x.accepts f = true ↔
        (∀ i < 16, x.fr2.getLsbD i = true → f.h16.getLsbD i = x.fr1.getLsbD i) ∨
        (∀ i < 16, x.fr2.getLsbD (16 + i) = true → f.h16.getLsbD i = x.fr1.getLsbD (16 + i)))) ∧
    (x.fa = true → x.fm = true → x.fs = false →
      (x.accepts f = true ↔
        f.h16.toNat = x.fr1.toNat % 65536 ∨ f.h16.toNat = x.fr1.toNat / 65536 ∨
        f.h16.toNat = x.fr2.toNat % 65536 ∨ f.h16.toNat = x.fr2.toNat / 65536))

/-- R154, R155, R156: `FLT_CONFIGURE` stores the pattern, the mask and the three control bits as given, and refuses a control
bit 31:3 with `ERR_ARG`; the 32-bit mask commands store the encoded pattern and mask, and refuse an operand out of range
with `ERR_RANGE`; a refused command changes nothing. -/
def Obligations.FltConfigureAndMask32 : Prop :=
  (∀ (d k : Nat), StartsOnOwnedBank (.fltConfigure d k) d k ∧
    ∀ s : State, s.Fits → s.pos = .start → s.Ready d → s.ownsBank d k = true →
      (8 ≤ (s.arg.get 2).toNat → exec (.fltConfigure d k) s = .next (s.finish .errArg [])) ∧
      ((s.arg.get 2).toNat < 8 →
        ∃ t, exec (.fltConfigure d k) s = .next t ∧
          s.Programmed t (s.farrayOf d) k
            { fr1 := s.arg.get 0, fr2 := s.arg.get 1, fm := (s.arg.get 2).getLsbD 0, fs := (s.arg.get 2).getLsbD 1,
              fa := (s.arg.get 2).getLsbD 2, fcfg := true }
            [s.arg.get 0, s.arg.get 1])) ∧
  ∀ (d k : Nat), StartsOnOwnedBank (.fltMask32Std d k) d k ∧ StartsOnOwnedBank (.fltMask32Ext d k) d k ∧
    ∀ s : State, s.Fits → s.pos = .start → s.Ready d → s.ownsBank d k = true →
      (¬ ((s.arg.get 0).toNat ≤ 0x7FF ∧ (s.arg.get 1).toNat ≤ 0x7FF) →
        exec (.fltMask32Std d k) s = .next (s.finish .errRange [])) ∧
      ((s.arg.get 0).toNat ≤ 0x7FF → (s.arg.get 1).toNat ≤ 0x7FF →
        ∃ t, exec (.fltMask32Std d k) s = .next t ∧
          s.Programmed t (s.farrayOf d) k
            { fr1 := p32s (s.arg.get 0) false, fr2 := m32s (s.arg.get 1), fm := false, fs := true, fa := true,
              fcfg := true }
            [p32s (s.arg.get 0) false, m32s (s.arg.get 1)]) ∧
      (¬ ((s.arg.get 0).toNat ≤ 0x1FFFFFFF ∧ (s.arg.get 1).toNat ≤ 0x1FFFFFFF) →
        exec (.fltMask32Ext d k) s = .next (s.finish .errRange [])) ∧
      ((s.arg.get 0).toNat ≤ 0x1FFFFFFF → (s.arg.get 1).toNat ≤ 0x1FFFFFFF →
        ∃ t, exec (.fltMask32Ext d k) s = .next t ∧
          s.Programmed t (s.farrayOf d) k
            { fr1 := p32x (s.arg.get 0) false, fr2 := m32x (s.arg.get 1), fm := false, fs := true, fa := true,
              fcfg := true }
            [p32x (s.arg.get 0) false, m32x (s.arg.get 1)])

/-- R157, R158: the list commands at 32-bit scale, each entry with its own `rtr`; the range check comes before the check
of the flag word. -/
def Obligations.FltList32 : Prop :=
  ∀ (d k : Nat), StartsOnOwnedBank (.fltList32Std d k) d k ∧ StartsOnOwnedBank (.fltList32Ext d k) d k ∧
    ∀ s : State, s.Fits → s.pos = .start → s.Ready d → s.ownsBank d k = true →
      (¬ ((s.arg.get 0).toNat ≤ 0x7FF ∧ (s.arg.get 1).toNat ≤ 0x7FF) →
        exec (.fltList32Std d k) s = .next (s.finish .errRange [])) ∧
      ((s.arg.get 0).toNat ≤ 0x7FF → (s.arg.get 1).toNat ≤ 0x7FF →
        (4 ≤ (s.arg.get 2).toNat → exec (.fltList32Std d k) s = .next (s.finish .errArg [])) ∧
        ((s.arg.get 2).toNat < 4 → ∃ t, exec (.fltList32Std d k) s = .next t ∧
          s.Programmed t (s.farrayOf d) k
            { fr1 := p32s (s.arg.get 0) ((s.arg.get 2).getLsbD 0), fr2 := p32s (s.arg.get 1) ((s.arg.get 2).getLsbD 1),
              fm := true, fs := true, fa := true, fcfg := true }
            [p32s (s.arg.get 0) ((s.arg.get 2).getLsbD 0), p32s (s.arg.get 1) ((s.arg.get 2).getLsbD 1)])) ∧
      (¬ ((s.arg.get 0).toNat ≤ 0x1FFFFFFF ∧ (s.arg.get 1).toNat ≤ 0x1FFFFFFF) →
        exec (.fltList32Ext d k) s = .next (s.finish .errRange [])) ∧
      ((s.arg.get 0).toNat ≤ 0x1FFFFFFF → (s.arg.get 1).toNat ≤ 0x1FFFFFFF →
        (4 ≤ (s.arg.get 2).toNat → exec (.fltList32Ext d k) s = .next (s.finish .errArg [])) ∧
        ((s.arg.get 2).toNat < 4 → ∃ t, exec (.fltList32Ext d k) s = .next t ∧
          s.Programmed t (s.farrayOf d) k
            { fr1 := p32x (s.arg.get 0) ((s.arg.get 2).getLsbD 0), fr2 := p32x (s.arg.get 1) ((s.arg.get 2).getLsbD 1),
              fm := true, fs := true, fa := true, fcfg := true }
            [p32x (s.arg.get 0) ((s.arg.get 2).getLsbD 0), p32x (s.arg.get 1) ((s.arg.get 2).getLsbD 1)]))

/-- R159, R160: the 16-bit commands. The high sub-filter is in the upper half; the four operands are checked before any
register is written. -/
def Obligations.Flt16 : Prop :=
  ∀ (d k : Nat), StartsOnOwnedBank (.fltMask16 d k) d k ∧ StartsOnOwnedBank (.fltList16 d k) d k ∧
    ∀ s : State, s.Fits → s.pos = .start → s.Ready d → s.ownsBank d k = true →
      ((∃ i < 4, 0x7FF < (s.arg.get i).toNat) →
        exec (.fltMask16 d k) s = .next (s.finish .errRange []) ∧
        exec (.fltList16 d k) s = .next (s.finish .errRange [])) ∧
      ((∀ i < 4, (s.arg.get i).toNat ≤ 0x7FF) →
        (∃ t x, exec (.fltMask16 d k) s = .next t ∧ s.Programmed t (s.farrayOf d) k x [x.fr1, x.fr2] ∧
          x.fm = false ∧ x.fs = false ∧ x.fa = true ∧ x.fcfg = true ∧
          x.fr1.toNat = (p16 (s.arg.get 2) false).toNat * 65536 + (p16 (s.arg.get 0) false).toNat ∧
          x.fr2.toNat = (m16 (s.arg.get 3)).toNat * 65536 + (m16 (s.arg.get 1)).toNat) ∧
        (16 ≤ (s.arg.get 4).toNat → exec (.fltList16 d k) s = .next (s.finish .errArg [])) ∧
        ((s.arg.get 4).toNat < 16 →
          ∃ t x, exec (.fltList16 d k) s = .next t ∧ s.Programmed t (s.farrayOf d) k x [x.fr1, x.fr2] ∧
            x.fm = true ∧ x.fs = false ∧ x.fa = true ∧ x.fcfg = true ∧
            x.fr1.toNat = (p16 (s.arg.get 1) ((s.arg.get 4).getLsbD 1)).toNat * 65536 +
              (p16 (s.arg.get 0) ((s.arg.get 4).getLsbD 0)).toNat ∧
            x.fr2.toNat = (p16 (s.arg.get 3) ((s.arg.get 4).getLsbD 3)).toNat * 65536 +
              (p16 (s.arg.get 2) ((s.arg.get 4).getLsbD 2)).toNat))

/-- R161, R162, R163: `FLT_ACCEPT_ALL` checks its operand, then the bank `first_bank + id_type`, and programs that bank with
the IDE bit as pattern and mask; the toggles write `FA` of their bank only, so one bit of `ENMASK[d]` (R30), and
`FLT_ENABLE` of a bank never configured is `ERR_ARG`. -/
def Obligations.FltAcceptAllAndToggle : Prop :=
  (∀ (d : Nat), StartsOnRunning (.fltAcceptAll d) d ∧
    ∀ s : State, s.Fits → s.pos = .start → s.Ready d →
      (2 ≤ (s.arg.get 0).toNat → exec (.fltAcceptAll d) s = .next (s.finish .errArg [])) ∧
      ((s.arg.get 0).toNat < 2 → (s.desc d).maxBank < (s.desc d).firstBank + (s.arg.get 0).toNat →
        exec (.fltAcceptAll d) s = .next (s.finish .errBank [])) ∧
      ((s.arg.get 0).toNat < 2 → (s.desc d).firstBank + (s.arg.get 0).toNat ≤ (s.desc d).maxBank →
        ∃ t, exec (.fltAcceptAll d) s = .next t ∧
          s.Programmed t (s.farrayOf d) ((s.desc d).firstBank + (s.arg.get 0).toNat)
            { fr1 := BitVec.ofNat 32 (4 * (s.arg.get 0).toNat), fr2 := 4, fm := false, fs := true, fa := true,
              fcfg := true }
            [BitVec.ofNat 32 (4 * (s.arg.get 0).toNat), 4,
             BitVec.ofNat 32 ((s.desc d).firstBank + (s.arg.get 0).toNat)])) ∧
  ∀ (d k : Nat), StartsOnOwnedBank (.fltEnable d k) d k ∧ StartsOnOwnedBank (.fltDisable d k) d k ∧
    ∀ s : State, s.Fits → s.pos = .start → s.Ready d → s.ownsBank d k = true →
      ((s.bank (s.farrayOf d) k).fcfg = false → exec (.fltEnable d k) s = .next (s.finish .errArg [])) ∧
      ((s.bank (s.farrayOf d) k).fcfg = true → ∃ t, exec (.fltEnable d k) s = .next t ∧
        s.Programmed t (s.farrayOf d) k { s.bank (s.farrayOf d) k with fa := true } [] ∧
        ∀ j, t.enmask d j = (decide (j = k) || s.enmask d j)) ∧
      ∃ t, exec (.fltDisable d k) s = .next t ∧
        s.Programmed t (s.farrayOf d) k { s.bank (s.farrayOf d) k with fa := false } [] ∧
        ∀ j, t.enmask d j = (!decide (j = k) && s.enmask d j)

/-- R164, R166, R165: `FLT_CLEAR_ALL` resets every owned bank and no other, so `ENMASK[d]` (R30) is 0; `FLT_READ` returns the registers and the
control word of its bank and changes nothing. -/
def Obligations.FltClearAndRead : Prop :=
  (∀ (d : Nat), StartsOnRunning (.fltClearAll d) d ∧
    ∀ s : State, s.Fits → s.pos = .start → s.Ready d →
      ∃ t, exec (.fltClearAll d) s = .next t ∧ s.OwnedCleared t d ∧ (∀ k, t.enmask d k = false) ∧ t.code = .ok ∧ t.res = Words8.zero ∧ t.cur = none ∧
        { t with flt := s.flt, code := s.code, res := s.res, cur := s.cur } = s) ∧
  ∀ (d k : Nat), StartsOnOwnedBank (.fltRead d k) d k ∧
    ∀ s : State, s.pos = .start → s.Ready d → s.ownsBank d k = true →
      ∃ t c, exec (.fltRead d k) s = .next t ∧ t.code = .ok ∧ t.cur = none ∧ s.OnlyOutcome t ∧
        t.res = ⟨(s.bank (s.farrayOf d) k).fr1, (s.bank (s.farrayOf d) k).fr2, c, 0, 0, 0, 0, 0⟩ ∧
        c.toNat = (s.bank (s.farrayOf d) k).fm.toNat + 2 * (s.bank (s.farrayOf d) k).fs.toNat +
          4 * (s.bank (s.farrayOf d) k).fa.toNat + 8 * (s.bank (s.farrayOf d) k).fcfg.toNat

/-- R170(b), (c): after `FLT_MASK32_STD` with mask 0x7FF the bank accepts a valid frame exactly when it is standard and has
the programmed id, after `FLT_MASK32_EXT` with mask 0x1FFFFFFF exactly when it is extended and has that id; no bank
programmed for standard identifiers accepts an extended frame, and no bank programmed for extended ones a standard one. -/
def Obligations.FilterSemantics : Prop :=
  (∀ (s : State) (d k : Nat) (f : Frame), s.Fits → s.pos = .start → s.Ready d → s.ownsBank d k = true →
    f.valid = true →
    ((s.arg.get 0).toNat ≤ 0x7FF → (s.arg.get 1).toNat = 0x7FF →
      ∃ t, exec (.fltMask32Std d k) s = .next t ∧
        ((t.bank (s.farrayOf d) k).accepts f = true ↔ f.ide = .std ∧ f.id.toNat = (s.arg.get 0).toNat)) ∧
    ((s.arg.get 0).toNat ≤ 0x1FFFFFFF → (s.arg.get 1).toNat = 0x1FFFFFFF →
      ∃ t, exec (.fltMask32Ext d k) s = .next t ∧
        ((t.bank (s.farrayOf d) k).accepts f = true ↔ f.ide = .ext ∧ f.id.toNat = (s.arg.get 0).toNat))) ∧
  ∀ (s t : State) (i : Instr) (d k : Nat) (f : Frame), s.Fits → s.pos = .start → f.valid = true →
    exec i s = .next t → t.code = .ok → (t.bank (s.farrayOf d) k).accepts f = true →
    (i = .fltMask32Std d k ∨ i = .fltList32Std d k ∨ i = .fltMask16 d k ∨ i = .fltList16 d k → f.ide = .std) ∧
    (i = .fltMask32Ext d k ∨ i = .fltList32Ext d k → f.ide = .ext)

/-- R170(a), (d): running a filter command again with the same operands leaves the state it left the first time; and
disabling then enabling an active, configured bank leaves the filter arrays as they were. -/
def Obligations.FilterRepeat : Prop :=
  (∀ (i : Instr) (s t : State), s.Fits → s.pos = .start → i.format = .cmdB ∨ i = .fltAcceptAll i.deviceOf ∨
      i = .fltClearAll i.deviceOf → exec i s = .next t → exec i { t with cur := some .start } = .next t) ∧
  ∀ (s : State) (d k : Nat), s.Fits → s.Locked → s.pos = .start → s.Ready d → s.ownsBank d k = true →
    (s.bank (s.farrayOf d) k).fcfg = true → (s.bank (s.farrayOf d) k).fa = true →
    ∃ t u, exec (.fltDisable d k) s = .next t ∧ exec (.fltEnable d k) { t with cur := some .start } = .next u ∧
      t.code = .ok ∧ u.code = .ok ∧ u.flt = s.flt

/-- R30: bit `k` of `ENMASK[d]` is `FA` of bank `k` in the owned range, and 0 elsewhere. R169: a block accepts a frame
exactly when some bank of the owned range of any of its devices matches; with every bit of `ENMASK[d]` 0 it accepts
nothing, and an arrival leaves the receive FIFO as it was. -/
def Obligations.BlockAcceptance : Prop :=
  (∀ (s : State) (d k : Nat), s.enmask d k = true ↔
    ((s.cfg.descOf d).firstBank ≤ k ∧ k ≤ (s.cfg.descOf d).maxBank) ∧ (s.bank (s.cfg.descOf d).farray k).fa = true) ∧
  ∀ (s : State) (d : Nat) (f : Frame), s.cfg.admitted = true → d < s.cfg.numDev →
    (s.accepts (s.blockOf d) f = true ↔
      ∃ k, (s.desc d).firstBank ≤ k ∧ k ≤ (s.desc d).maxBank ∧ (s.bank (s.farrayOf d) k).accepts f = true) ∧
    ((∀ k, s.enmask d k = false) →
      s.accepts (s.blockOf d) f = false ∧ (busArrive (s.blockOf d) s).blk = s.blk)

/-! ## Lifecycle commands (44_controller.md) -/

/-- R192: `OPEN`. Capacities, then the claim; on success the registry entry, two empty rings with unwritten slot RAM,
enables off, timing cleared, CONFIGURED; no hardware, filter or pin is touched. -/
def Obligations.OpenDevice : Prop :=
  ∀ (d : Nat) (s : State), s.Fits → s.pos = .start → s.cfg.hasDevice d = true →
    (¬ ((s.arg.get 0).toNat ∈ [4, 8, 16, 32, 64, 128, 256, 512] ∧
        (s.arg.get 1).toNat ∈ [0, 4, 8, 16, 32, 64, 128, 256, 512]) →
      exec (.devOpen d) s = .next (s.finish .errCap [])) ∧
    ((s.arg.get 0).toNat ∈ [4, 8, 16, 32, 64, 128, 256, 512] →
      (s.arg.get 1).toNat ∈ [0, 4, 8, 16, 32, 64, 128, 256, 512] →
      ((s.block (s.blockOf d)).claim = true → exec (.devOpen d) s = .next (s.finish .errClaimed [])) ∧
      ((s.block (s.blockOf d)).claim = false →
        ∃ t, exec (.devOpen d) s = .next t ∧ t.code = .ok ∧ t.res = Words8.zero ∧ t.cur = none ∧
          t.device d =
            { s.device d with
              st := .configured, rxIe := false, txIe := false, timing := 0, baud := 0, baudValid := false
              rxr := { cap := (s.arg.get 0).toNat, head := 0, tail := 0, slot := [] }
              txr := { cap := (s.arg.get 1).toNat, head := 0, tail := 0, slot := [] } } ∧
          t.block (s.blockOf d) = { s.block (s.blockOf d) with claim := true, owner := d } ∧
          s.OtherDevices t d ∧ s.OtherBlocks t (s.blockOf d) ∧
          { t with dev := s.dev, blk := s.blk, code := s.code, res := s.res, cur := s.cur } = s))

/-- R193, R204: `BEGIN` of a CONFIGURED device. A rate the solver refuses is `ERR_BAUD`. Otherwise one draw answers
`hw_init`: on true the timing is recorded, the owned banks are cleared, the RX interrupt armed, the pin driven awake, the
controller NORMAL and empty, the device RUNNING; on false `ERR_HW`, the controller in RESET and the device still
CONFIGURED; no other device changes. `TRX` is the level on the pin, so devices with one pin show one level: the model's
reading (notes/assumptions/13.md). A drawn Boolean is bit 0 of the model's next drawn word (notes/assumptions/2.md). -/
def Obligations.BeginDevice : Prop :=
  ∀ (d : Nat) (s : State), s.Fits → s.pos = .start → s.cfg.hasDevice d = true → (s.device d).st = .configured →
    (solve (s.arg.get 0).toNat (s.desc d).pclk = none → exec (.devBegin d) s = .next (s.finish .errBaud [])) ∧
    ∀ r, solve (s.arg.get 0).toNat (s.desc d).pclk = some r →
      ∃ t, exec (.devBegin d) s = .next t ∧ t.cur = none ∧ t.tape = s.tape.tail ∧ t.drawn = s.drawn + 1 ∧
        s.OtherDevices t d ∧ s.OtherBlocks t (s.blockOf d) ∧
        { t with
          dev := s.dev, blk := s.blk, flt := s.flt, pins := s.pins, code := s.code, res := s.res, cur := s.cur, tape := s.tape
          drawn := s.drawn } = s ∧
        if drawnBool s.nextDraw = true then
          t.code = .ok ∧ t.res = ⟨r.timing, 0, 0, 0, 0, 0, 0, 0⟩ ∧ s.OwnedCleared t d ∧
          s.PinDriven t d (s.desc d).trxAwake ∧
          t.device d =
            { s.device d with
              st := .running, rxIe := true, txIe := false, timing := r.timing, baud := s.arg.get 0
              baudValid := true } ∧
          t.block (s.blockOf d) = { s.block (s.blockOf d) with hwMode := .normal, mbox := [], rxfifo := [] }
        else
          t.code = .errHw ∧ t.res = Words8.zero ∧ t.flt = s.flt ∧ t.dev = s.dev ∧ t.pins = s.pins ∧
          t.block (s.blockOf d) = { s.block (s.blockOf d) with hwMode := .reset }

/-- R194, R290: `SET_BAUDRATE` of a RUNNING device. Where both mode changes are answered with true the timing is
recorded; where either is not, the command ends with `ERR_HW`, the timing state is whatever the draws leave and not
valid, the controller is in INIT or NORMAL, and nothing else of the device changes. Draws as the model takes them
(notes/assumptions/2.md). -/
def Obligations.SetBaudrate : Prop :=
  ∀ (d : Nat), StartsOnRunning (.setBaudrate d) d ∧
    ∀ s : State, s.Fits → s.pos = .start → s.Ready d →
      (solve (s.arg.get 0).toNat (s.desc d).pclk = none → exec (.setBaudrate d) s = .next (s.finish .errBaud [])) ∧
      ∀ r, solve (s.arg.get 0).toNat (s.desc d).pclk = some r →
        ∃ t, exec (.setBaudrate d) s = .next t ∧ t.cur = none ∧ s.OtherDevices t d ∧ s.OtherBlocks t (s.blockOf d) ∧
          { t with
            dev := s.dev, blk := s.blk, code := s.code, res := s.res, cur := s.cur, tape := s.tape
            drawn := s.drawn } = s ∧
          if drawnBool s.nextDraw = true ∧ drawnBool s.afterDraw.nextDraw = true then
            t.code = .ok ∧ t.res = ⟨r.timing, 0, 0, 0, 0, 0, 0, 0⟩ ∧
            t.device d = { s.device d with timing := r.timing, baud := s.arg.get 0, baudValid := true } ∧
            t.block (s.blockOf d) = { s.block (s.blockOf d) with hwMode := .normal }
          else
            t.code = .errHw ∧ t.res = Words8.zero ∧ (t.device d).baudValid = false ∧
            { t.device d with
              timing := (s.device d).timing, baud := (s.device d).baud, baudValid := (s.device d).baudValid } =
              s.device d ∧
            ((t.block (s.blockOf d)).hwMode = .init ∨ (t.block (s.blockOf d)).hwMode = .normal) ∧
            { t.block (s.blockOf d) with hwMode := (s.block (s.blockOf d)).hwMode } = s.block (s.blockOf d)

/-- R195, R281, R204: `CLOSE` of a device that is not UNINIT returns the device, its block and its banks to their reset
values, but for the pin, driven to the sleep level, and the stale `OWNER`; no state of another device, block or bank range
changes. `TRX` is the level on the pin, so devices with one pin show one level: the model's reading
(notes/assumptions/13.md). -/
def Obligations.CloseDevice : Prop :=
  ∀ (d : Nat) (s : State), s.Fits → s.pos = .start → s.cfg.hasDevice d = true → (s.device d).st ≠ .uninit →
    ∃ t, exec (.devClose d) s = .next t ∧ t.code = .ok ∧ t.res = Words8.zero ∧ t.cur = none ∧
      t.device d = DevState.reset ∧
      t.block (s.blockOf d) = { BlockState.reset with owner := (s.block (s.blockOf d)).owner } ∧
      s.PinDriven t d (!(s.desc d).trxAwake) ∧
      s.OwnedCleared t d ∧ s.OtherDevices t d ∧ s.OtherBlocks t (s.blockOf d) ∧
      { t with dev := s.dev, blk := s.blk, flt := s.flt, pins := s.pins, code := s.code, res := s.res, cur := s.cur } = s

/-! ## Write and read paths (44_controller.md) -/

/-- R196: the steps of `WRITE`. The ring is tested before a direct send is attempted, a direct send touches neither ring
nor `TX_IE`, and only a queued frame sets `TX_IE`. Where `HW_TX_MAY_FAIL`, a draw decides (notes/assumptions/2.md). That
each bracket of the rule is a step, the two short ends after the direct attempt too, and that a branch is taken in the
step before it, is the model's reading (notes/assumptions/15.md). -/
def Obligations.WriteSteps : Prop :=
  ∀ (d : Nat), StartsOnRunning (.write d) d ∧
    ∀ s : State, s.Fits → s.cfg.hasDevice d = true →
      (s.pos = .start → s.Ready d →
        (s.argFrame.valid = false → exec (.write d) s = .next (s.finish .errArg [])) ∧
        (s.argFrame.valid = true →
          exec (.write d) s = .next { s with cur := some (.testEmpty (Frame.ofWords s.argFrame)) })) ∧
      (∀ f, s.cur = some (.testEmpty f) →
        exec (.write d) s = .next { s with
          cur := some (if (s.ring ⟨d, .tx⟩).cap = 0 ∨ (s.ring ⟨d, .tx⟩).head = (s.ring ⟨d, .tx⟩).tail then .direct f
            else .pushCheck f) }) ∧
      (∀ f, s.cur = some (.direct f) → ∃ t, exec (.write d) s = .next t ∧
        ((s.block (s.blockOf d)).mbox.length < s.cfg.mboxCount → (s.block (s.blockOf d)).hwMode = .normal →
          (s.cfg.hwTxMayFail = true → drawnBool s.nextDraw = true) →
          t.cur = some .directDone ∧
          t.block (s.blockOf d) = { s.block (s.blockOf d) with mbox := (s.block (s.blockOf d)).mbox ++ [f] } ∧
          s.OtherBlocks t (s.blockOf d) ∧
          { t with blk := s.blk, cur := s.cur, tape := s.tape, drawn := s.drawn } = s) ∧
        (¬ ((s.block (s.blockOf d)).mbox.length < s.cfg.mboxCount ∧ (s.block (s.blockOf d)).hwMode = .normal ∧
            (s.cfg.hwTxMayFail = true → drawnBool s.nextDraw = true)) →
          t.cur = some (if (s.ring ⟨d, .tx⟩).cap = 0 then .noQueue else .pushCheck f) ∧
          { t with cur := s.cur, tape := s.tape, drawn := s.drawn } = s)) ∧
      exec (.write d) { s with cur := some .directDone } = .next (s.finish .ok [0]) ∧
      exec (.write d) { s with cur := some .noQueue } = .next (s.finish .full []) ∧
      (∀ f, s.cur = some (.pushCheck f) →
        exec (.write d) s = .next { s with
          cur := some (if (s.ring ⟨d, .tx⟩).cap = 0 ∨
              ((s.ring ⟨d, .tx⟩).head + 1) % (s.ring ⟨d, .tx⟩).cap = (s.ring ⟨d, .tx⟩).tail then .finishBool false
            else .pushFill (s.ring ⟨d, .tx⟩).head f) }) ∧
      (∀ h f, s.cur = some (.pushFill h f) → h < (s.ring ⟨d, .tx⟩).cap →
        ∃ t, exec (.write d) s = .next t ∧ t.cur = some (.pushPublish h) ∧ t.active = s.active ∧
          s.StoresFrame t ⟨d, .tx⟩ h f.words) ∧
      (∀ h, s.cur = some (.pushPublish h) →
        ∃ t, exec (.write d) s = .next t ∧ t.cur = some (.finishBool true) ∧
          t.device d = { s.device d with
            txr := { (s.device d).txr with head := (h + 1) % (s.device d).txr.cap } } ∧
          s.OtherDevices t d ∧ { t with dev := s.dev, cur := s.cur } = s) ∧
      (s.cur = some (.finishBool true) →
        ∃ t, exec (.write d) s = .next t ∧ t.code = .ok ∧ t.res = ⟨1, 0, 0, 0, 0, 0, 0, 0⟩ ∧ t.cur = none ∧
          t.device d = { s.device d with txIe := true } ∧ s.OtherDevices t d ∧
          { t with dev := s.dev, code := s.code, res := s.res, cur := s.cur } = s) ∧
      exec (.write d) { s with cur := some (.finishBool false) } = .next (s.finish .full [])

/-- R196: uninterrupted `WRITE` of a valid frame. With the ring empty and a mailbox to take it, the frame goes to the
mailbox in four steps with `RES0` = 0 and nothing else changed; with frames in a ring that is not full it is queued in
six steps with `RES0` = 1, `TX_IE` set, and no mailbox touched. The counts of steps are the model's reading of the rule's
brackets (notes/assumptions/15.md); a direct attempt that fails is in `WriteSteps`. -/
def Obligations.WriteRun : Prop :=
  ∀ (d : Nat) (s : State), s.Fits → s.Ready d → (s.ring ⟨d, .tx⟩).Ok → s.pos = .start → s.argFrame.valid = true →
    ((s.ring ⟨d, .tx⟩).isEmpty = true → (s.block (s.blockOf d)).mbox.length < s.cfg.mboxCount →
      (s.block (s.blockOf d)).hwMode = .normal → s.cfg.hwTxMayFail = false →
      ∃ t, execTimes (.write d) 4 s = .next t ∧ t.code = .ok ∧ t.res = Words8.zero ∧ t.cur = none ∧
        t.block (s.blockOf d) = { s.block (s.blockOf d) with
          mbox := (s.block (s.blockOf d)).mbox ++ [Frame.ofWords s.argFrame] } ∧
        s.OtherBlocks t (s.blockOf d) ∧ { t with blk := s.blk, code := s.code, res := s.res, cur := s.cur } = s) ∧
    ((s.ring ⟨d, .tx⟩).isEmpty = false → (s.ring ⟨d, .tx⟩).isFull = false →
      ∃ t, execTimes (.write d) 6 s = .next t ∧ t.code = .ok ∧ t.res = ⟨1, 0, 0, 0, 0, 0, 0, 0⟩ ∧ t.cur = none ∧
        (t.ring ⟨d, .tx⟩).contents = (s.ring ⟨d, .tx⟩).contents ++ [.ok s.argFrame] ∧
        (t.device d).txIe = true ∧
        (∀ a, a < 16 * (s.ring ⟨d, .tx⟩).head ∨ 16 * (s.ring ⟨d, .tx⟩).head + 16 ≤ a →
          Memory.read (t.ring ⟨d, .tx⟩).slot a = Memory.read (s.ring ⟨d, .tx⟩).slot a) ∧
        { t.device d with txr := (s.device d).txr, txIe := (s.device d).txIe } = s.device d ∧
        s.OtherDevices t d ∧ { t with dev := s.dev, code := s.code, res := s.res, cur := s.cur } = s) ∧
    ((s.ring ⟨d, .tx⟩).isEmpty = false → (s.ring ⟨d, .tx⟩).isFull = true →
      execTimes (.write d) 4 s = .next (s.finish .full []))

/-- R197, R108, R291: `AVAILABLE_FOR_WRITE` is ring space plus free mailboxes; it reaches `max(CAP - 1, 0) + MBOX_COUNT`
exactly when the ring is empty and every mailbox is free. R198: `AVAILABLE` is the count of the receive ring. -/
def Obligations.AvailableQueries : Prop :=
  ∀ (d : Nat), StartsOnRunning (.availableForWrite d) d ∧ StartsOnRunning (.available d) d ∧
    ∀ s : State, s.pos = .start → s.Ready d → s.RingsOk d → s.cfg.admitted = true →
      (s.block (s.blockOf d)).mbox.length ≤ s.cfg.mboxCount →
      (∃ t, exec (.availableForWrite d) s = .next t ∧ t.code = .ok ∧ t.cur = none ∧ s.OnlyOutcome t ∧
        (∀ i, 0 < i → i < 8 → t.res.get i = 0) ∧
        (t.res.get 0).toNat + (s.ring ⟨d, .tx⟩).count + (s.block (s.blockOf d)).mbox.length =
          ((s.ring ⟨d, .tx⟩).cap - 1) + s.cfg.mboxCount ∧
        ((t.res.get 0).toNat = ((s.ring ⟨d, .tx⟩).cap - 1) + s.cfg.mboxCount ↔
          (s.ring ⟨d, .tx⟩).isEmpty = true ∧ (s.block (s.blockOf d)).mbox = [])) ∧
      ∃ t, exec (.available d) s = .next t ∧ t.code = .ok ∧ t.cur = none ∧ s.OnlyOutcome t ∧
        (∀ i, 0 < i → i < 8 → t.res.get i = 0) ∧ (t.res.get 0).toNat = (s.ring ⟨d, .rx⟩).count

/-- R199, R200 with R106, R107: the steps of `PEEK` and `READ`. Masking comes before the ring is touched, the slot is read
before `TAIL` advances, and the last step sets `RX_IE` to 1 whatever it was. -/
def Obligations.PeekReadSteps : Prop :=
  ∀ (d : Nat), StartsOnRunning (.peek d) d ∧ StartsOnRunning (.read d) d ∧
    ∀ s : State, d < s.dev.length →
      (s.pos = .start → s.Ready d →
        exec (.peek d) s = .next { s with cur := some .mask } ∧
        exec (.read d) s = .next { s with cur := some .mask }) ∧
      (s.cur = some .mask → ∃ t, exec (.peek d) s = .next t ∧ exec (.read d) s = .next t ∧ t.cur = some .peekCheck ∧
        t.device d = { s.device d with rxIe := false } ∧ s.OtherDevices t d ∧
        { t with dev := s.dev, cur := s.cur } = s) ∧
      (s.cur = some .peekCheck →
        exec (.peek d) s = exec (.read d) s ∧
        exec (.read d) s = .next { s with
          cur := some (if (s.ring ⟨d, .rx⟩).cap = 0 ∨ (s.ring ⟨d, .rx⟩).head = (s.ring ⟨d, .rx⟩).tail then
            .finishFrame none else .peekRead (s.ring ⟨d, .rx⟩).tail) }) ∧
      (∀ u w, s.cur = some (.peekRead u) → (s.ring ⟨d, .rx⟩).readSlot u = .ok w →
        exec (.peek d) s = .next { s with cur := some (.finishFrame (some (Frame.ofWords w))) } ∧
        exec (.read d) s = .next { s with cur := some (.popCheck (some (Frame.ofWords w))) }) ∧
      (∀ x, s.cur = some (.popCheck x) →
        exec (.read d) s = .next { s with
          cur := some (if (s.ring ⟨d, .rx⟩).cap = 0 ∨ (s.ring ⟨d, .rx⟩).head = (s.ring ⟨d, .rx⟩).tail then
            .finishFrame x else .popAdvance (s.ring ⟨d, .rx⟩).tail x) }) ∧
      (∀ u x, s.cur = some (.popAdvance u x) →
        ∃ t, exec (.read d) s = .next t ∧ t.cur = some (.finishFrame x) ∧
          t.device d = { s.device d with
            rxr := { (s.device d).rxr with tail := (u + 1) % (s.device d).rxr.cap } } ∧
          s.OtherDevices t d ∧ { t with dev := s.dev, cur := s.cur } = s) ∧
      (∀ x, s.cur = some (.finishFrame x) →
        ∃ t, exec (.peek d) s = .next t ∧ exec (.read d) s = .next t ∧ t.cur = none ∧
          t.code = (if x = none then .empty else .ok) ∧
          t.res = (match x with
            | none => Words8.zero
            | some f => ⟨f.words.fw0, f.words.fw1, f.words.fw2, f.words.fw3, 0, 0, 0, 0⟩) ∧
          t.device d = { s.device d with rxIe := true } ∧ s.OtherDevices t d ∧
          { t with dev := s.dev, code := s.code, res := s.res, cur := s.cur } = s)

/-- R199, R200: uninterrupted, on a well-formed receive ring that is not empty. `PEEK` gives the oldest frame in five
steps and leaves the ring; `READ` gives it in seven and removes it and no other; both leave `RX_IE` at 1. On an empty
ring both end `EMPTY` in four steps with `RX_IE` at 1. -/
def Obligations.PeekReadRun : Prop :=
  ∀ (d : Nat) (s : State), s.Fits → s.Ready d → (s.ring ⟨d, .rx⟩).Ok → s.pos = .start →
    ((s.ring ⟨d, .rx⟩).isEmpty = true → ∃ t, execTimes (.peek d) 4 s = .next t ∧ execTimes (.read d) 4 s = .next t ∧
      t.code = .empty ∧ t.res = Words8.zero ∧ t.cur = none ∧ t.device d = { s.device d with rxIe := true } ∧
      s.OtherDevices t d ∧ { t with dev := s.dev, code := s.code, res := s.res, cur := s.cur } = s) ∧
    ((s.ring ⟨d, .rx⟩).isEmpty = false → ∃ w rest t u, (s.ring ⟨d, .rx⟩).contents = .ok w :: rest ∧
      execTimes (.peek d) 5 s = .next t ∧ t.code = .ok ∧ t.res = Words8.ofList (Frame.ofWords w).results ∧
      t.cur = none ∧ t.device d = { s.device d with rxIe := true } ∧ s.OtherDevices t d ∧
      { t with dev := s.dev, code := s.code, res := s.res, cur := s.cur } = s ∧
      execTimes (.read d) 7 s = .next u ∧ u.code = .ok ∧ u.res = t.res ∧ u.cur = none ∧
      (u.ring ⟨d, .rx⟩).contents = rest ∧
      u.device d = { s.device d with
        rxIe := true, rxr := { (s.device d).rxr with tail := ((s.device d).rxr.tail + 1) % (s.device d).rxr.cap } } ∧
      s.OtherDevices u d ∧ { u with dev := s.dev, code := s.code, res := s.res, cur := s.cur } = s)

/-- R201, R242, R202, R81: `GET_ERROR` takes one draw, whose reserved bits 3 and 15:7 read 0, returns it in `RES1` and its
classification in `RES0`, and changes nothing else; the environment may answer any such word. The classification sets at
most one of bits 0 to 5, by the last error code, and one of bits 8 to 10, by the bus-off flag and the two counters; every
other bit is 0. The draw is the model's next drawn word (notes/assumptions/2.md). -/
def Obligations.GetError : Prop :=
  (∀ (d : Nat), StartsOnRunning (.getError d) d ∧
    ∀ s : State, s.pos = .start → s.Ready d →
      ∃ t esr, exec (.getError d) s = .next t ∧ esr &&& 0x0000FF88 = 0 ∧ t.code = .ok ∧
        t.res = ⟨classify esr, esr, 0, 0, 0, 0, 0, 0⟩ ∧ t.cur = none ∧ t.drawn = s.drawn + 1 ∧ t.tape = s.tape.tail ∧
        { t with code := s.code, res := s.res, cur := s.cur, tape := s.tape, drawn := s.drawn } = s ∧
        ∀ w rest, s.tape = w :: rest → w &&& 0x0000FF88 = 0 → esr = w) ∧
  ∀ esr : Word,
    (∀ i, i < 32 → ((classify esr).getLsbD i = true ↔
      (i = 0 ∧ field esr 4 3 = 1) ∨ (i = 1 ∧ field esr 4 3 = 2) ∨ (i = 2 ∧ field esr 4 3 = 3) ∨
      (i = 3 ∧ (field esr 4 3 = 4 ∨ field esr 4 3 = 5)) ∨ (i = 4 ∧ field esr 4 3 = 6) ∨ (i = 5 ∧ field esr 4 3 = 7) ∨
      (i = 10 ∧ esr.getLsbD 2 = true) ∨
      (i = 9 ∧ esr.getLsbD 2 = false ∧ (127 < field esr 16 8 ∨ 127 < field esr 24 8)) ∨
      (i = 8 ∧ esr.getLsbD 2 = false ∧ field esr 16 8 ≤ 127 ∧ field esr 24 8 ≤ 127 ∧
        (96 ≤ field esr 16 8 ∨ 96 ≤ field esr 24 8)))) ∧
    (classify esr = 0 ↔ field esr 4 3 = 0 ∧ esr.getLsbD 2 = false ∧ field esr 16 8 < 96 ∧ field esr 24 8 < 96)

/-! ## Engine handlers and the bus (45_irq.md) -/

/-- R231, R232: the steps of the RX handler. Entry only adds it to `ACTIVE`; a full ring disables the interrupt and leaves
the FIFO; otherwise one frame moves from the FIFO head into the ring, published last, and the handler leaves. -/
def Obligations.IrqRxSteps : Prop :=
  ∀ (d : Nat) (s : State), s.Fits → s.cfg.hasDevice d = true →
    (s.handlerPos ⟨d, .rx⟩ = none →
      exec (.irqRx d) s = .next { s with
        active := s.active ++ [⟨⟨d, .rx⟩,
          if (s.ring ⟨d, .rx⟩).cap = 0 ∨
              ((s.ring ⟨d, .rx⟩).head + 1) % (s.ring ⟨d, .rx⟩).cap = (s.ring ⟨d, .rx⟩).tail then .backPressure
          else .receive⟩] }) ∧
    (s.handlerPos ⟨d, .rx⟩ = some .backPressure → ∃ t, exec (.irqRx d) s = .next t ∧
      t.device d = { s.device d with rxIe := false } ∧ s.OtherDevices t d ∧ t.handlerPos ⟨d, .rx⟩ = none ∧
      (∀ h, h ≠ ⟨d, .rx⟩ → t.handlerPos h = s.handlerPos h) ∧ { t with dev := s.dev, active := s.active } = s) ∧
    (∀ f rest, s.handlerPos ⟨d, .rx⟩ = some .receive → (s.block (s.blockOf d)).rxfifo = f :: rest →
      ∃ t, exec (.irqRx d) s = .next t ∧ t.block (s.blockOf d) = { s.block (s.blockOf d) with rxfifo := rest } ∧
        s.OtherBlocks t (s.blockOf d) ∧ t.handlerPos ⟨d, .rx⟩ = some (.pushCheck f) ∧
        (∀ h, h ≠ ⟨d, .rx⟩ → t.handlerPos h = s.handlerPos h) ∧ { t with blk := s.blk, active := s.active } = s) ∧
    (∀ f, s.handlerPos ⟨d, .rx⟩ = some (.pushCheck f) →
      ∃ t, exec (.irqRx d) s = .next t ∧ t.handlerPos ⟨d, .rx⟩ = some
          (if (s.ring ⟨d, .rx⟩).cap = 0 ∨
              ((s.ring ⟨d, .rx⟩).head + 1) % (s.ring ⟨d, .rx⟩).cap = (s.ring ⟨d, .rx⟩).tail then .exit
           else .pushFill (s.ring ⟨d, .rx⟩).head f) ∧
        (∀ h, h ≠ ⟨d, .rx⟩ → t.handlerPos h = s.handlerPos h) ∧ { t with active := s.active } = s) ∧
    (∀ i f, s.handlerPos ⟨d, .rx⟩ = some (.pushFill i f) → i < (s.ring ⟨d, .rx⟩).cap →
      ∃ t, exec (.irqRx d) s = .next t ∧ t.handlerPos ⟨d, .rx⟩ = some (.pushPublish i) ∧
        (∀ h, h ≠ ⟨d, .rx⟩ → t.handlerPos h = s.handlerPos h) ∧ t.cur = s.cur ∧
        s.StoresFrame t ⟨d, .rx⟩ i f.words) ∧
    (∀ i, s.handlerPos ⟨d, .rx⟩ = some (.pushPublish i) →
      ∃ t, exec (.irqRx d) s = .next t ∧ t.handlerPos ⟨d, .rx⟩ = some .exit ∧
        (∀ h, h ≠ ⟨d, .rx⟩ → t.handlerPos h = s.handlerPos h) ∧
        t.device d = { s.device d with
          rxr := { (s.device d).rxr with head := (i + 1) % (s.device d).rxr.cap } } ∧
        s.OtherDevices t d ∧ { t with dev := s.dev, active := s.active } = s) ∧
    (s.handlerPos ⟨d, .rx⟩ = some .exit → ∃ t, exec (.irqRx d) s = .next t ∧ t.handlerPos ⟨d, .rx⟩ = none ∧
      (∀ h, h ≠ ⟨d, .rx⟩ → t.handlerPos h = s.handlerPos h) ∧ { t with active := s.active } = s)

/-- R231, R233: the steps of the TX handler. The frame at `TAIL` is read, loaded into a mailbox, and only then popped; a
failed transmit leads to the exit; the exit clears `TX_IE` exactly when the ring is empty. Draws: notes/assumptions/2.md. -/
def Obligations.IrqTxSteps : Prop :=
  ∀ (d : Nat) (s : State), s.Fits → s.cfg.hasDevice d = true →
    (s.handlerPos ⟨d, .tx⟩ = none →
      exec (.irqTx d) s = .next { s with active := s.active ++ [⟨⟨d, .tx⟩, .loopTest⟩] }) ∧
    (s.handlerPos ⟨d, .tx⟩ = some .loopTest → ∃ t, exec (.irqTx d) s = .next t ∧
      t.handlerPos ⟨d, .tx⟩ = some
        (if (s.ring ⟨d, .tx⟩).cap = 0 ∨ (s.ring ⟨d, .tx⟩).head = (s.ring ⟨d, .tx⟩).tail then .exit else .peekCheck) ∧
      (∀ h, h ≠ ⟨d, .tx⟩ → t.handlerPos h = s.handlerPos h) ∧ { t with active := s.active } = s) ∧
    (s.handlerPos ⟨d, .tx⟩ = some .peekCheck → (s.ring ⟨d, .tx⟩).isEmpty = false →
      ∃ t, exec (.irqTx d) s = .next t ∧ t.handlerPos ⟨d, .tx⟩ = some (.peekRead (s.ring ⟨d, .tx⟩).tail) ∧
        (∀ h, h ≠ ⟨d, .tx⟩ → t.handlerPos h = s.handlerPos h) ∧ { t with active := s.active } = s) ∧
    (∀ u w, s.handlerPos ⟨d, .tx⟩ = some (.peekRead u) → (s.ring ⟨d, .tx⟩).readSlot u = .ok w →
      ∃ t, exec (.irqTx d) s = .next t ∧ t.handlerPos ⟨d, .tx⟩ = some (.transmit (Frame.ofWords w)) ∧
        (∀ h, h ≠ ⟨d, .tx⟩ → t.handlerPos h = s.handlerPos h) ∧ { t with active := s.active } = s) ∧
    (∀ f, s.handlerPos ⟨d, .tx⟩ = some (.transmit f) → ∃ t, exec (.irqTx d) s = .next t ∧
      (∀ h, h ≠ ⟨d, .tx⟩ → t.handlerPos h = s.handlerPos h) ∧ s.OtherBlocks t (s.blockOf d) ∧
      { t with blk := s.blk, active := s.active, tape := s.tape, drawn := s.drawn } = s ∧
      if (s.block (s.blockOf d)).mbox.length < s.cfg.mboxCount ∧ (s.block (s.blockOf d)).hwMode = .normal ∧
          (s.cfg.hwTxMayFail = true → drawnBool s.nextDraw = true) then
        t.handlerPos ⟨d, .tx⟩ = some (.popCheck none) ∧
        t.block (s.blockOf d) = { s.block (s.blockOf d) with mbox := (s.block (s.blockOf d)).mbox ++ [f] }
      else t.handlerPos ⟨d, .tx⟩ = some .exit ∧ t.blk = s.blk) ∧
    (∀ x, s.handlerPos ⟨d, .tx⟩ = some (.popCheck x) → ∃ t, exec (.irqTx d) s = .next t ∧
      t.handlerPos ⟨d, .tx⟩ = some
        (if (s.ring ⟨d, .tx⟩).cap = 0 ∨ (s.ring ⟨d, .tx⟩).head = (s.ring ⟨d, .tx⟩).tail then .loopTest
         else .popAdvance (s.ring ⟨d, .tx⟩).tail x) ∧
      (∀ h, h ≠ ⟨d, .tx⟩ → t.handlerPos h = s.handlerPos h) ∧ { t with active := s.active } = s) ∧
    (∀ u x, s.handlerPos ⟨d, .tx⟩ = some (.popAdvance u x) → ∃ t, exec (.irqTx d) s = .next t ∧
      t.handlerPos ⟨d, .tx⟩ = some .loopTest ∧ (∀ h, h ≠ ⟨d, .tx⟩ → t.handlerPos h = s.handlerPos h) ∧
      t.device d = { s.device d with txr := { (s.device d).txr with tail := (u + 1) % (s.device d).txr.cap } } ∧
      s.OtherDevices t d ∧ { t with dev := s.dev, active := s.active } = s) ∧
    (s.handlerPos ⟨d, .tx⟩ = some .exit → ∃ t, exec (.irqTx d) s = .next t ∧ t.handlerPos ⟨d, .tx⟩ = none ∧
      (∀ h, h ≠ ⟨d, .tx⟩ → t.handlerPos h = s.handlerPos h) ∧
      t.device d = { s.device d with
        txIe := if (s.ring ⟨d, .tx⟩).cap = 0 ∨ (s.ring ⟨d, .tx⟩).head = (s.ring ⟨d, .tx⟩).tail then false
          else (s.device d).txIe } ∧
      s.OtherDevices t d ∧ { t with dev := s.dev, active := s.active } = s)

/-- R231, R232, R235: an RX handler run with no step of another agent between its own. With a full ring it leaves after two
steps, having only disabled its interrupt; else it leaves after six steps, having moved exactly the FIFO's head to the
end of the ring. -/
def Obligations.IrqRxRun : Prop :=
  ∀ (d : Nat) (s : State), s.Fits → s.cfg.hasDevice d = true → (s.ring ⟨d, .rx⟩).Ok → s.handlerPos ⟨d, .rx⟩ = none →
    ((s.ring ⟨d, .rx⟩).isFull = true → ∃ t, execTimes (.irqRx d) 2 s = .next t ∧
      t.device d = { s.device d with rxIe := false } ∧ s.OtherDevices t d ∧ { t with dev := s.dev } = s) ∧
    (∀ f rest, (s.ring ⟨d, .rx⟩).isFull = false → (s.block (s.blockOf d)).rxfifo = f :: rest →
      ∃ t, execTimes (.irqRx d) 6 s = .next t ∧
        t.block (s.blockOf d) = { s.block (s.blockOf d) with rxfifo := rest } ∧
        (t.ring ⟨d, .rx⟩).contents = (s.ring ⟨d, .rx⟩).contents ++ [.ok f.words] ∧ (t.ring ⟨d, .rx⟩).Ok ∧
        (∀ a, a < 16 * (s.ring ⟨d, .rx⟩).head ∨ 16 * (s.ring ⟨d, .rx⟩).head + 16 ≤ a →
          Memory.read (t.ring ⟨d, .rx⟩).slot a = Memory.read (s.ring ⟨d, .rx⟩).slot a) ∧
        { t.device d with rxr := (s.device d).rxr } = s.device d ∧
        s.OtherDevices t d ∧ s.OtherBlocks t (s.blockOf d) ∧ { t with dev := s.dev, blk := s.blk } = s)

/-- R233, R235, R203(a): a TX handler run with no step of another agent between its own and no drawn transmit failure, in
a NORMAL controller: it loads the oldest frames of the ring, as many as there are free mailboxes, in ring order behind
those already loaded, leaves after at most `6n + 6` steps for `n` frames loaded, and clears `TX_IE` exactly when the ring
ends empty. -/
def Obligations.IrqTxRun : Prop :=
  ∀ (d : Nat) (s : State), s.Fits → s.cfg.hasDevice d = true → (s.ring ⟨d, .tx⟩).Ok → s.handlerPos ⟨d, .tx⟩ = none →
    (s.block (s.blockOf d)).hwMode = .normal → s.cfg.hwTxMayFail = false →
    (s.block (s.blockOf d)).mbox.length ≤ s.cfg.mboxCount →
    ∃ (ws : List FrameWords) (rest : List (Except SlotError FrameWords)) (k : Nat) (t : State),
      (s.ring ⟨d, .tx⟩).contents = ws.map Except.ok ++ rest ∧
      ws.length = min (s.ring ⟨d, .tx⟩).count (s.cfg.mboxCount - (s.block (s.blockOf d)).mbox.length) ∧
      0 < k ∧ k ≤ 6 * ws.length + 6 ∧ execTimes (.irqTx d) k s = .next t ∧
      t.block (s.blockOf d) = { s.block (s.blockOf d) with
        mbox := (s.block (s.blockOf d)).mbox ++ ws.map Frame.ofWords } ∧
      (t.ring ⟨d, .tx⟩).contents = rest ∧
      (t.device d).txIe = (if (t.ring ⟨d, .tx⟩).isEmpty = true then false else (s.device d).txIe) ∧
      { t.device d with
        txIe := (s.device d).txIe, txr := { (t.device d).txr with tail := (s.device d).txr.tail } } = s.device d ∧
      s.OtherDevices t d ∧ s.OtherBlocks t (s.blockOf d) ∧ { t with dev := s.dev, blk := s.blk } = s

/-- R240: a completion takes the first mailbox of a NORMAL controller. R241: an arrival in a NORMAL controller puts a valid
accepted frame at the end of a FIFO with room, or, at an overrun, leaves the FIFO or replaces its last frame; in any
other mode, and with no accepted frame drawn, no FIFO changes. No bus step touches anything else but the draws, which the
model takes as four words (notes/assumptions/2.md, 5.md). -/
def Obligations.BusSteps : Prop :=
  ∀ (b : Nat) (s : State), b < s.blk.length →
    ((s.block b).hwMode = .normal → (busComplete b s).block b = { s.block b with mbox := (s.block b).mbox.tail }) ∧
    ((s.block b).hwMode ≠ .normal → busComplete b s = s ∧ busArrive b s = s) ∧
    s.OtherBlocks (busComplete b s) b ∧ { busComplete b s with blk := s.blk } = s ∧
    s.OtherBlocks (busArrive b s) b ∧
    { busArrive b s with blk := s.blk, tape := s.tape, drawn := s.drawn } = s ∧
    { (busArrive b s).block b with rxfifo := (s.block b).rxfifo } = s.block b ∧
    ((busArrive b s).blk = s.blk ∨
      ∃ f : Frame, f.valid = true ∧ s.accepts b f = true ∧ (s.block b).hwMode = .normal ∧
        (((s.block b).rxfifo.length < s.cfg.rxFifoDepth ∧
          ((busArrive b s).block b).rxfifo = (s.block b).rxfifo ++ [f]) ∨
         (s.cfg.rxFifoDepth ≤ (s.block b).rxfifo.length ∧
          ((busArrive b s).block b).rxfifo = (s.block b).rxfifo.dropLast ++ [f]))) ∧
    ∀ (f : Frame) (rest : List Word), f.valid = true → s.accepts b f = true → (s.block b).hwMode = .normal →
      (s.block b).rxfifo.length < s.cfg.rxFifoDepth →
      s.tape = f.words.fw0 :: f.words.fw1 :: f.words.fw2 :: f.words.fw3 :: rest →
      ((busArrive b s).block b).rxfifo = (s.block b).rxfifo ++ [f]

/-! ## Rules about the whole machine -/

/-- R23, R24, R190, R204, R276: `ST`, the registry and the pin change only in a step of `APP` running `OPEN`, `BEGIN` or
`CLOSE` of a present device: `ST` becomes CONFIGURED by `OPEN`, goes from CONFIGURED to RUNNING by `BEGIN`, becomes UNINIT
by `CLOSE`; `OPEN` claims a free block for its device, `CLOSE` releases it and keeps `OWNER`; `BEGIN` drives its device's
pin awake and `CLOSE` drives it to sleep, for every device with that pin (R31, R204; where several share a pin:
notes/assumptions/13.md). -/
def Obligations.DeviceStateWriters : Prop :=
  ∀ (s t : State), step s = .next t →
    (∀ d, (t.device d).st ≠ (s.device d).st → s.choose = .app ∧ s.cur ≠ none ∧ s.cfg.hasDevice d = true ∧
      ((decode s.cmd = .ok (.devOpen d) ∧ (t.device d).st = .configured) ∨
       (decode s.cmd = .ok (.devBegin d) ∧ (s.device d).st = .configured ∧ (t.device d).st = .running) ∨
       (decode s.cmd = .ok (.devClose d) ∧ (t.device d).st = .uninit))) ∧
    (∀ b, (t.block b).claim ≠ (s.block b).claim ∨ (t.block b).owner ≠ (s.block b).owner → s.choose = .app ∧
      s.cur ≠ none ∧ ∃ d, s.cfg.hasDevice d = true ∧ s.blockOf d = b ∧
        ((decode s.cmd = .ok (.devOpen d) ∧ (s.block b).claim = false ∧ (t.block b).claim = true ∧
          (t.block b).owner = d) ∨
         (decode s.cmd = .ok (.devClose d) ∧ (t.block b).claim = false ∧ (t.block b).owner = (s.block b).owner))) ∧
    ∀ e, t.trx e ≠ s.trx e → s.choose = .app ∧ s.cur ≠ none ∧ (s.desc e).trxPin ≠ none ∧
      ∃ d, s.cfg.hasDevice d = true ∧ (s.desc d).trxPin = (s.desc e).trxPin ∧
        ((decode s.cmd = .ok (.devBegin d) ∧
          t.trx e = (if (s.desc d).trxAwake = true then .high else .low)) ∨
         (decode s.cmd = .ok (.devClose d) ∧
          t.trx e = (if (s.desc d).trxAwake = true then .low else .high)))

/-- R27, R283, R285, R287, R203(d): who writes the interrupt enables. `RX_IE` changes only by `OPEN`, `BEGIN`, `CLOSE`,
`PEEK`, `READ` of the device or its RX handler, and only `BEGIN`, `PEEK` and `READ` set it: `RB_POP`, `RB_PEEK` and
`AVAILABLE` do not. `TX_IE` changes only by `OPEN`, `BEGIN`, `CLOSE`, `WRITE` of the device or its TX handler, and only
the last step of a `WRITE` whose push succeeded sets it. -/
def Obligations.EnableWriters : Prop :=
  ∀ (s t : State) (d : Nat), step s = .next t →
    ((t.device d).rxIe ≠ (s.device d).rxIe →
      (s.choose = .app ∧ s.cur ≠ none ∧
        (decode s.cmd = .ok (.devOpen d) ∨ decode s.cmd = .ok (.devBegin d) ∨ decode s.cmd = .ok (.devClose d) ∨
         decode s.cmd = .ok (.peek d) ∨ decode s.cmd = .ok (.read d))) ∨
      ((s.choose = .enter ⟨d, .rx⟩ ∨ s.choose = .resume ⟨d, .rx⟩) ∧ (t.device d).rxIe = false)) ∧
    ((s.device d).rxIe = false → (t.device d).rxIe = true → s.choose = .app ∧
      (decode s.cmd = .ok (.devBegin d) ∨ decode s.cmd = .ok (.peek d) ∨ decode s.cmd = .ok (.read d))) ∧
    ((t.device d).txIe ≠ (s.device d).txIe →
      (s.choose = .app ∧ s.cur ≠ none ∧
        (decode s.cmd = .ok (.devOpen d) ∨ decode s.cmd = .ok (.devBegin d) ∨ decode s.cmd = .ok (.devClose d) ∨
         decode s.cmd = .ok (.write d))) ∨
      ((s.choose = .enter ⟨d, .tx⟩ ∨ s.choose = .resume ⟨d, .tx⟩) ∧ (t.device d).txIe = false ∧
        (s.ring ⟨d, .tx⟩).isEmpty = true)) ∧
    ((s.device d).txIe = false → (t.device d).txIe = true → s.choose = .app ∧
      decode s.cmd = .ok (.write d) ∧ s.cur = some (.finishBool true))

/-- R150, R153: a bank changes only in a step of `APP` running a filter command, `BEGIN` or `CLOSE` of a device that owns
it; `FLT_CLEAR_ALL`, `BEGIN` and `CLOSE` only reset it, and the toggles write no register but `FA`. -/
def Obligations.BankWriters : Prop :=
  ∀ (s t : State) (a k : Nat), step s = .next t → t.bank a k ≠ s.bank a k →
    s.choose = .app ∧ s.cur ≠ none ∧ ∃ i, decode s.cmd = .ok i ∧ s.cfg.hasDevice i.deviceOf = true ∧
      s.farrayOf i.deviceOf = a ∧ s.ownsBank i.deviceOf k = true ∧
      ((i.format = .cmdB ∧ ∀ d k', i ≠ .fltRead d k') ∨ i = .fltAcceptAll i.deviceOf ∨ i = .fltClearAll i.deviceOf ∨
       i = .devBegin i.deviceOf ∨ i = .devClose i.deviceOf) ∧
      (i = .fltClearAll i.deviceOf ∨ i = .devBegin i.deviceOf ∨ i = .devClose i.deviceOf → t.bank a k = Bank.reset) ∧
      (i = .fltEnable i.deviceOf k ∨ i = .fltDisable i.deviceOf k →
        { t.bank a k with fa := (s.bank a k).fa } = s.bank a k)

/-- R231, R260: no command writes `CMD`, `ARG` or the configuration, or consumes the host's program or the schedule; a
command writes the status and the results only in the step that clears `BUSY`. The handlers neither write nor read the
command port: their steps are the same whatever it holds. -/
def Obligations.CommandPortOwner : Prop :=
  (∀ (i : Instr) (s t : State), exec i s = .next t →
    t.cmd = s.cmd ∧ t.arg = s.arg ∧ t.cfg = s.cfg ∧ t.host = s.host ∧ t.readData = s.readData ∧ t.sched = s.sched ∧
    (t.cur ≠ none → t.code = s.code ∧ t.res = s.res) ∧
    (i.format = .irq → t.code = s.code ∧ t.res = s.res ∧ t.cur = s.cur)) ∧
  ∀ (h : Handler) (s t : State) (cmd : Word) (code : StatusCode) (arg res : Words8) (cur : Option Pos),
    exec h.instr s = .next t →
      exec h.instr (s.withPort cmd code arg res cur) = .next (t.withPort cmd code arg res cur)

/-- R260, R262, R170(e): a command that ends at its first step with any status but `OK` leaves the whole state as it was,
apart from `STATUS`, `RES` and `CUR`; the one exception is `ERR_HW` of `BEGIN` and `SET_BAUDRATE`. -/
def Obligations.FailuresChangeNothing : Prop :=
  ∀ (i : Instr) (s t : State), i.format ≠ .irq → s.pos = .start → exec i s = .next t → t.cur = none → t.code ≠ .ok →
    t = s.finish t.code [] ∨
    (t.code = .errHw ∧ (i = .devBegin i.deviceOf ∨ i = .setBaudrate i.deviceOf) ∧
      t.flt = s.flt ∧ t.active = s.active ∧ t.faults = s.faults ∧ ∀ e, (t.device e).st = (s.device e).st)

/-- R35, R265: a fault once recorded stays, and an agent it stopped takes no further step of its own. -/
def Obligations.FaultsAreForever : Prop :=
  (∀ (s t : State), step s = .next t → ∀ r ∈ s.faults, r ∈ t.faults) ∧
  ∀ (s : State),
    (s.stopped .app = true → s.enabled .app = false ∧ s.enabled .port = false) ∧
    ∀ h, s.stopped (.engine h) = true → s.enabled (.enter h) = false ∧ s.enabled (.resume h) = false

/-- R8, R150, R281: what a device does leaves a device of another block alone: its lifecycle, rings, enables and timing,
its block's registry entry, mailboxes, FIFO and mode, and every bank it owns. `TRX` of it stands too, but where it names
the pin of a device that runs `BEGIN` or `CLOSE`: the level is the pin's, the model's reading (notes/assumptions/13.md). -/
def Obligations.BlockIsolation : Prop :=
  ∀ (i : Instr) (s t : State) (e : Nat), s.Fits → i ≠ .btSolve → i.deviceOf < s.cfg.numDev → e < s.cfg.numDev →
    s.blockOf e ≠ s.blockOf i.deviceOf → exec i s = .next t →
    t.device e = s.device e ∧
    (t.trx e ≠ s.trx e → (i = .devBegin i.deviceOf ∨ i = .devClose i.deviceOf) ∧
      (s.desc e).trxPin ≠ none ∧ (s.desc e).trxPin = (s.desc i.deviceOf).trxPin) ∧
    t.block (s.blockOf e) = s.block (s.blockOf e) ∧
    (∀ k, s.ownsBank e k = true → t.bank (s.farrayOf e) k = s.bank (s.farrayOf e) k) ∧
    ∀ f, t.accepts (s.blockOf e) f = s.accepts (s.blockOf e) f

/-! ## Reset and invariants -/

/-- R41, R280: the reset state of every configuration: each register, table and record at the value of the reset table.
`OWNER` is unspecified there and not stated. -/
def Obligations.ResetValues : Prop :=
  ∀ c : Config,
    let s := State.resetOf c
    s.cfg = c ∧ s.cmd = 0 ∧ s.status = 0 ∧ (∀ i, s.arg.get i = 0 ∧ s.res.get i = 0) ∧ s.cur = none ∧ s.active = [] ∧
    s.faults = [] ∧
    (∀ d < c.numDev, (s.device d).st = .uninit ∧ (s.device d).rxIe = false ∧ (s.device d).txIe = false ∧
      (s.device d).timing = 0 ∧ (s.device d).baud = 0 ∧ (s.device d).baudValid = false ∧ s.trx d = .z ∧
      ∀ sel, (s.ring ⟨d, sel⟩).cap = 0 ∧ (s.ring ⟨d, sel⟩).head = 0 ∧ (s.ring ⟨d, sel⟩).tail = 0 ∧
        ∀ a, Memory.read (s.ring ⟨d, sel⟩).slot a = none) ∧
    (∀ b < c.numBlocks, (s.block b).claim = false ∧ (s.block b).mbox = [] ∧ (s.block b).rxfifo = [] ∧
      (s.block b).hwMode = .reset) ∧
    (∀ a < c.numFarrays, (s.array a).wp = true ∧ (s.array a).banks.length = c.numBanks a ∧
      ∀ k, s.bank a k = { fr1 := 0, fr2 := 0, fm := false, fs := false, fa := false, fcfg := false }) ∧
    ∀ d, s.irqRxLine d = false ∧ s.irqTxLine d = false

/-- The reset state of every admitted configuration meets the invariant, and the reference configuration of R9 is
admitted. -/
def Obligations.ResetMeetsInvariant : Prop :=
  (∀ c : Config, c.admitted = true → (State.resetOf c).Inv) ∧ State.reset.cfg.admitted = true

/-- R29, R153, R25: from every state, a step keeps the configuration and the sizes of the tables, `WP` of every array at
1, and every slot RAM and the table of pin levels (R31; notes/assumptions/13.md) in their canonical form. -/
def Obligations.StepKeepsStorage : Prop :=
  ∀ (s t : State), step s = .next t →
    t.cfg = s.cfg ∧ (s.Sized → t.Sized) ∧ (s.Sized → s.Locked → t.Locked) ∧
    ((∀ ref, Memory.wf (s.ring ref).slot) → ∀ ref, Memory.wf (t.ring ref).slot) ∧
    (Table.wf s.pins → Table.wf t.pins)

/-- R190: from every state that fits its configuration, a step keeps the registry invariant: a device is out of UNINIT
exactly when its block is claimed with it as owner; so two devices of one block are never both out of UNINIT. -/
def Obligations.StepKeepsRegistry : Prop :=
  (∀ (s t : State), s.Fits → s.RegistryOk → step s = .next t → t.RegistryOk) ∧
  ∀ (s : State), s.RegistryOk → ∀ d < s.cfg.numDev, ∀ e < s.cfg.numDev, s.blockOf d = s.blockOf e →
    (s.device d).st ≠ .uninit → (s.device e).st ≠ .uninit → d = e

/-- R270, R234: from every state, a step keeps nesting by strict priority: each active handler is more urgent than those
entered before it, so no two have one priority number, and only the last entered may step. -/
def Obligations.StepKeepsNesting : Prop :=
  (∀ (s t : State), s.NestingOk → step s = .next t → t.NestingOk) ∧
  ∀ (s : State), s.NestingOk →
    (s.active.map fun r => s.prio r.handler).Nodup ∧
    ∀ h, s.enabled (.resume h) = true → ∃ rest r, s.active = rest ++ [r] ∧ r.handler = h

/-- From every state that meets the invariant, a step gives a state that meets it. Its part `pins`, that the levels stand in
a table by pin and only the pins of devices are driven, rests on the model's reading of `TRX` as the level on the pin,
the same for devices that share one (notes/assumptions/13.md). -/
def Obligations.StepKeepsInvariant : Prop :=
  ∀ (s t : State), s.Inv → step s = .next t → t.Inv

/-- R62, R203(c), R265, R266: what the invariant gives. A step never meets a position with no meaning: it answers a next
state, or the host's access lies outside the window. It records no model fault but `F_PORT` of `APP`: no slot is read
before it is written, no primitive is used outside its contract. That an access outside the window ends the step, and the
event `port`, are the model's (notes/assumptions/12.md, 7.md). And from the masking step of `PEEK` or `READ` to its
last step the device's RX line is 0 and its RX handler takes no step. -/
def Obligations.InvariantConsequences : Prop :=
  ∀ (s : State), s.Inv →
    ((∃ t, step s = .next t ∧ ∀ r ∈ t.faults, r ∈ s.faults ∨ ∃ addr width, r = ⟨.port addr width, .app⟩) ∨
      (step s = .fault .outsideWindow ∧ (s.choose = .app ∨ s.choose = .port))) ∧
    ∀ d p, (decode s.cmd = .ok (.peek d) ∨ decode s.cmd = .ok (.read d)) → s.cur = some p → p ≠ .start → p ≠ .mask →
      s.irqRxLine d = false ∧ s.enabled (.enter ⟨d, .rx⟩) = false ∧ s.enabled (.resume ⟨d, .rx⟩) = false
end

