-- ==== Sys2Proof/Laws/Encoding.lean ====
section
/-!
SUPPORT. The fields of a command word read back as they were put together (spec/30_encoding.md R70), and the mask of
each format leaves the opcode alone when the fields it does not use are 0 (R71).
-/

namespace Sys2Proof

theorem commandWord_bits_opc (o : BitVec 8) (d : BitVec 4) (r : RingSel) (k : BitVec 5) :
    (commandWord o.toNat d.toNat r k.toNat).extractLsb' 0 8 = o := by
  apply BitVec.eq_of_getLsbD_eq
  intro i hi
  cases r <;> simp [commandWord, BitVec.ofNat_toNat, BitVec.getLsbD_extractLsb', BitVec.getLsbD_setWidth] <;>
    interval_cases i <;> simp

theorem commandWord_bits_dev (o : BitVec 8) (d : BitVec 4) (r : RingSel) (k : BitVec 5) :
    (commandWord o.toNat d.toNat r k.toNat).extractLsb' 8 4 = d := by
  apply BitVec.eq_of_getLsbD_eq
  intro i hi
  cases r <;> simp [commandWord, BitVec.ofNat_toNat, BitVec.getLsbD_extractLsb', BitVec.getLsbD_setWidth] <;>
    interval_cases i <;> simp

theorem commandWord_bits_ring (o : BitVec 8) (d : BitVec 4) (r : RingSel) (k : BitVec 5) :
    (commandWord o.toNat d.toNat r k.toNat).extractLsb' 12 1 = (match r with | .rx => 0#1 | .tx => 1#1) := by
  apply BitVec.eq_of_getLsbD_eq
  intro i hi
  cases r <;> simp [commandWord, BitVec.ofNat_toNat, BitVec.getLsbD_extractLsb', BitVec.getLsbD_setWidth] <;>
    interval_cases i <;> simp

theorem commandWord_bits_bank (o : BitVec 8) (d : BitVec 4) (r : RingSel) (k : BitVec 5) :
    (commandWord o.toNat d.toNat r k.toNat).extractLsb' 16 5 = k := by
  apply BitVec.eq_of_getLsbD_eq
  intro i hi
  cases r <;> simp [commandWord, BitVec.ofNat_toNat, BitVec.getLsbD_extractLsb', BitVec.getLsbD_setWidth] <;>
    interval_cases i <;> simp

theorem commandWord_bits_maskN (o : BitVec 8) :
    commandWord o.toNat 0 .rx 0 &&& Format.mask .cmdN = o.setWidth 32 := by
  apply BitVec.eq_of_getLsbD_eq
  intro i hi
  simp [commandWord, Format.mask, BitVec.ofNat_toNat, BitVec.getLsbD_setWidth]
  interval_cases i <;> simp

theorem commandWord_bits_maskD (o : BitVec 8) (d : BitVec 4) :
    commandWord o.toNat d.toNat .rx 0 &&& Format.mask .cmdD = o.setWidth 32 := by
  apply BitVec.eq_of_getLsbD_eq
  intro i hi
  simp [commandWord, Format.mask, BitVec.ofNat_toNat, BitVec.getLsbD_setWidth]
  interval_cases i <;> simp

theorem commandWord_bits_maskR (o : BitVec 8) (d : BitVec 4) (r : RingSel) :
    commandWord o.toNat d.toNat r 0 &&& Format.mask .cmdR = o.setWidth 32 := by
  apply BitVec.eq_of_getLsbD_eq
  intro i hi
  cases r <;> simp [commandWord, Format.mask, BitVec.ofNat_toNat, BitVec.getLsbD_setWidth] <;>
    interval_cases i <;> simp

theorem commandWord_bits_maskB (o : BitVec 8) (d : BitVec 4) (k : BitVec 5) :
    commandWord o.toNat d.toNat .rx k.toNat &&& Format.mask .cmdB = o.setWidth 32 := by
  apply BitVec.eq_of_getLsbD_eq
  intro i hi
  simp [commandWord, Format.mask, BitVec.ofNat_toNat, BitVec.getLsbD_setWidth]
  interval_cases i <;> simp

/-! ## The same over naturals in range -/

theorem opcField_commandWord {o d k : Nat} (r : RingSel) (ho : o < 256) (hd : d < 16) (hk : k < 32) :
    opcField (commandWord o d r k) = o := by
  have h := commandWord_bits_opc (BitVec.ofNat 8 o) (BitVec.ofNat 4 d) r (BitVec.ofNat 5 k)
  simp only [BitVec.toNat_ofNat, Nat.mod_eq_of_lt ho, Nat.mod_eq_of_lt hd, Nat.mod_eq_of_lt hk] at h
  simp [opcField, field, h, Nat.mod_eq_of_lt ho]

theorem devField_commandWord {o d k : Nat} (r : RingSel) (ho : o < 256) (hd : d < 16) (hk : k < 32) :
    devField (commandWord o d r k) = d := by
  have h := commandWord_bits_dev (BitVec.ofNat 8 o) (BitVec.ofNat 4 d) r (BitVec.ofNat 5 k)
  simp only [BitVec.toNat_ofNat, Nat.mod_eq_of_lt ho, Nat.mod_eq_of_lt hd, Nat.mod_eq_of_lt hk] at h
  simp [devField, field, h, Nat.mod_eq_of_lt hd]

theorem ringField_commandWord {o d k : Nat} (r : RingSel) (ho : o < 256) (hd : d < 16) (hk : k < 32) :
    ringField (commandWord o d r k) = r := by
  have h := commandWord_bits_ring (BitVec.ofNat 8 o) (BitVec.ofNat 4 d) r (BitVec.ofNat 5 k)
  simp only [BitVec.toNat_ofNat, Nat.mod_eq_of_lt ho, Nat.mod_eq_of_lt hd, Nat.mod_eq_of_lt hk] at h
  cases r <;> simp [ringField, field, h]

theorem bankField_commandWord {o d k : Nat} (r : RingSel) (ho : o < 256) (hd : d < 16) (hk : k < 32) :
    bankField (commandWord o d r k) = k := by
  have h := commandWord_bits_bank (BitVec.ofNat 8 o) (BitVec.ofNat 4 d) r (BitVec.ofNat 5 k)
  simp only [BitVec.toNat_ofNat, Nat.mod_eq_of_lt ho, Nat.mod_eq_of_lt hd, Nat.mod_eq_of_lt hk] at h
  simp [bankField, field, h, Nat.mod_eq_of_lt hk]

theorem setWidth_ofNat_opc {o : Nat} (ho : o < 256) : (BitVec.ofNat 8 o).setWidth 32 = BitVec.ofNat 32 o := by
  apply BitVec.eq_of_toNat_eq
  simp
  omega

theorem maskN_commandWord {o : Nat} (ho : o < 256) :
    commandWord o 0 .rx 0 &&& Format.mask .cmdN = BitVec.ofNat 32 o := by
  have h := commandWord_bits_maskN (BitVec.ofNat 8 o)
  rwa [BitVec.toNat_ofNat, Nat.mod_eq_of_lt ho, setWidth_ofNat_opc ho] at h

theorem maskD_commandWord {o d : Nat} (ho : o < 256) (hd : d < 16) :
    commandWord o d .rx 0 &&& Format.mask .cmdD = BitVec.ofNat 32 o := by
  have h := commandWord_bits_maskD (BitVec.ofNat 8 o) (BitVec.ofNat 4 d)
  rwa [BitVec.toNat_ofNat, BitVec.toNat_ofNat, Nat.mod_eq_of_lt ho, Nat.mod_eq_of_lt hd, setWidth_ofNat_opc ho] at h

theorem maskR_commandWord {o d : Nat} (r : RingSel) (ho : o < 256) (hd : d < 16) :
    commandWord o d r 0 &&& Format.mask .cmdR = BitVec.ofNat 32 o := by
  have h := commandWord_bits_maskR (BitVec.ofNat 8 o) (BitVec.ofNat 4 d) r
  rwa [BitVec.toNat_ofNat, BitVec.toNat_ofNat, Nat.mod_eq_of_lt ho, Nat.mod_eq_of_lt hd, setWidth_ofNat_opc ho] at h

theorem maskB_commandWord {o d k : Nat} (ho : o < 256) (hd : d < 16) (hk : k < 32) :
    commandWord o d .rx k &&& Format.mask .cmdB = BitVec.ofNat 32 o := by
  have h := commandWord_bits_maskB (BitVec.ofNat 8 o) (BitVec.ofNat 4 d) (BitVec.ofNat 5 k)
  rwa [BitVec.toNat_ofNat, BitVec.toNat_ofNat, BitVec.toNat_ofNat, Nat.mod_eq_of_lt ho, Nat.mod_eq_of_lt hd,
    Nat.mod_eq_of_lt hk, setWidth_ofNat_opc ho] at h

end Sys2Proof
end

