-- ==== Sys2Proof/Laws/State.lean ====
section
/-!
SUPPORT. The small lemmas of the state: one per field per update, reads after writes, and what the views depend on.
-/

namespace Sys2Proof
namespace Machine

/-! ## `setDevice` -/

@[simp] theorem setDevice_cfg (s : State) (d : Nat) (x : DevState) : (s.setDevice d x).cfg = s.cfg := rfl
@[simp] theorem setDevice_cmd (s : State) (d : Nat) (x : DevState) : (s.setDevice d x).cmd = s.cmd := rfl
@[simp] theorem setDevice_code (s : State) (d : Nat) (x : DevState) : (s.setDevice d x).code = s.code := rfl
@[simp] theorem setDevice_arg (s : State) (d : Nat) (x : DevState) : (s.setDevice d x).arg = s.arg := rfl
@[simp] theorem setDevice_res (s : State) (d : Nat) (x : DevState) : (s.setDevice d x).res = s.res := rfl
@[simp] theorem setDevice_blk (s : State) (d : Nat) (x : DevState) : (s.setDevice d x).blk = s.blk := rfl
@[simp] theorem setDevice_flt (s : State) (d : Nat) (x : DevState) : (s.setDevice d x).flt = s.flt := rfl
@[simp] theorem setDevice_cur (s : State) (d : Nat) (x : DevState) : (s.setDevice d x).cur = s.cur := rfl
@[simp] theorem setDevice_active (s : State) (d : Nat) (x : DevState) : (s.setDevice d x).active = s.active := rfl
@[simp] theorem setDevice_faults (s : State) (d : Nat) (x : DevState) : (s.setDevice d x).faults = s.faults := rfl
@[simp] theorem setDevice_host (s : State) (d : Nat) (x : DevState) : (s.setDevice d x).host = s.host := rfl
@[simp] theorem setDevice_pins (s : State) (d : Nat) (x : DevState) : (s.setDevice d x).pins = s.pins := rfl
@[simp] theorem setDevice_readData (s : State) (d : Nat) (x : DevState) : (s.setDevice d x).readData = s.readData := rfl
@[simp] theorem setDevice_sched (s : State) (d : Nat) (x : DevState) : (s.setDevice d x).sched = s.sched := rfl
@[simp] theorem setDevice_tape (s : State) (d : Nat) (x : DevState) : (s.setDevice d x).tape = s.tape := rfl
@[simp] theorem setDevice_drawn (s : State) (d : Nat) (x : DevState) : (s.setDevice d x).drawn = s.drawn := rfl

/-! ## `setBlock` -/

@[simp] theorem setBlock_cfg (s : State) (b : Nat) (x : BlockState) : (s.setBlock b x).cfg = s.cfg := rfl
@[simp] theorem setBlock_cmd (s : State) (b : Nat) (x : BlockState) : (s.setBlock b x).cmd = s.cmd := rfl
@[simp] theorem setBlock_code (s : State) (b : Nat) (x : BlockState) : (s.setBlock b x).code = s.code := rfl
@[simp] theorem setBlock_arg (s : State) (b : Nat) (x : BlockState) : (s.setBlock b x).arg = s.arg := rfl
@[simp] theorem setBlock_res (s : State) (b : Nat) (x : BlockState) : (s.setBlock b x).res = s.res := rfl
@[simp] theorem setBlock_dev (s : State) (b : Nat) (x : BlockState) : (s.setBlock b x).dev = s.dev := rfl
@[simp] theorem setBlock_flt (s : State) (b : Nat) (x : BlockState) : (s.setBlock b x).flt = s.flt := rfl
@[simp] theorem setBlock_cur (s : State) (b : Nat) (x : BlockState) : (s.setBlock b x).cur = s.cur := rfl
@[simp] theorem setBlock_active (s : State) (b : Nat) (x : BlockState) : (s.setBlock b x).active = s.active := rfl
@[simp] theorem setBlock_faults (s : State) (b : Nat) (x : BlockState) : (s.setBlock b x).faults = s.faults := rfl
@[simp] theorem setBlock_host (s : State) (b : Nat) (x : BlockState) : (s.setBlock b x).host = s.host := rfl
@[simp] theorem setBlock_pins (s : State) (b : Nat) (x : BlockState) : (s.setBlock b x).pins = s.pins := rfl
@[simp] theorem setBlock_readData (s : State) (b : Nat) (x : BlockState) : (s.setBlock b x).readData = s.readData := rfl
@[simp] theorem setBlock_sched (s : State) (b : Nat) (x : BlockState) : (s.setBlock b x).sched = s.sched := rfl
@[simp] theorem setBlock_tape (s : State) (b : Nat) (x : BlockState) : (s.setBlock b x).tape = s.tape := rfl
@[simp] theorem setBlock_drawn (s : State) (b : Nat) (x : BlockState) : (s.setBlock b x).drawn = s.drawn := rfl

/-! ## `setArray` -/

@[simp] theorem setArray_cfg (s : State) (a : Nat) (x : FilterArray) : (s.setArray a x).cfg = s.cfg := rfl
@[simp] theorem setArray_cmd (s : State) (a : Nat) (x : FilterArray) : (s.setArray a x).cmd = s.cmd := rfl
@[simp] theorem setArray_code (s : State) (a : Nat) (x : FilterArray) : (s.setArray a x).code = s.code := rfl
@[simp] theorem setArray_arg (s : State) (a : Nat) (x : FilterArray) : (s.setArray a x).arg = s.arg := rfl
@[simp] theorem setArray_res (s : State) (a : Nat) (x : FilterArray) : (s.setArray a x).res = s.res := rfl
@[simp] theorem setArray_dev (s : State) (a : Nat) (x : FilterArray) : (s.setArray a x).dev = s.dev := rfl
@[simp] theorem setArray_blk (s : State) (a : Nat) (x : FilterArray) : (s.setArray a x).blk = s.blk := rfl
@[simp] theorem setArray_cur (s : State) (a : Nat) (x : FilterArray) : (s.setArray a x).cur = s.cur := rfl
@[simp] theorem setArray_active (s : State) (a : Nat) (x : FilterArray) : (s.setArray a x).active = s.active := rfl
@[simp] theorem setArray_faults (s : State) (a : Nat) (x : FilterArray) : (s.setArray a x).faults = s.faults := rfl
@[simp] theorem setArray_host (s : State) (a : Nat) (x : FilterArray) : (s.setArray a x).host = s.host := rfl
@[simp] theorem setArray_pins (s : State) (a : Nat) (x : FilterArray) : (s.setArray a x).pins = s.pins := rfl
@[simp] theorem setArray_readData (s : State) (a : Nat) (x : FilterArray) : (s.setArray a x).readData = s.readData := rfl
@[simp] theorem setArray_sched (s : State) (a : Nat) (x : FilterArray) : (s.setArray a x).sched = s.sched := rfl
@[simp] theorem setArray_tape (s : State) (a : Nat) (x : FilterArray) : (s.setArray a x).tape = s.tape := rfl
@[simp] theorem setArray_drawn (s : State) (a : Nat) (x : FilterArray) : (s.setArray a x).drawn = s.drawn := rfl

/-! ## `setRing` -/

@[simp] theorem setRing_cfg (s : State) (ref : RingRef) (r : Ring) : (s.setRing ref r).cfg = s.cfg := rfl
@[simp] theorem setRing_cmd (s : State) (ref : RingRef) (r : Ring) : (s.setRing ref r).cmd = s.cmd := rfl
@[simp] theorem setRing_code (s : State) (ref : RingRef) (r : Ring) : (s.setRing ref r).code = s.code := rfl
@[simp] theorem setRing_arg (s : State) (ref : RingRef) (r : Ring) : (s.setRing ref r).arg = s.arg := rfl
@[simp] theorem setRing_res (s : State) (ref : RingRef) (r : Ring) : (s.setRing ref r).res = s.res := rfl
@[simp] theorem setRing_blk (s : State) (ref : RingRef) (r : Ring) : (s.setRing ref r).blk = s.blk := rfl
@[simp] theorem setRing_flt (s : State) (ref : RingRef) (r : Ring) : (s.setRing ref r).flt = s.flt := rfl
@[simp] theorem setRing_cur (s : State) (ref : RingRef) (r : Ring) : (s.setRing ref r).cur = s.cur := rfl
@[simp] theorem setRing_active (s : State) (ref : RingRef) (r : Ring) : (s.setRing ref r).active = s.active := rfl
@[simp] theorem setRing_faults (s : State) (ref : RingRef) (r : Ring) : (s.setRing ref r).faults = s.faults := rfl
@[simp] theorem setRing_host (s : State) (ref : RingRef) (r : Ring) : (s.setRing ref r).host = s.host := rfl
@[simp] theorem setRing_pins (s : State) (ref : RingRef) (r : Ring) : (s.setRing ref r).pins = s.pins := rfl
@[simp] theorem setRing_readData (s : State) (ref : RingRef) (r : Ring) : (s.setRing ref r).readData = s.readData := rfl
@[simp] theorem setRing_sched (s : State) (ref : RingRef) (r : Ring) : (s.setRing ref r).sched = s.sched := rfl
@[simp] theorem setRing_tape (s : State) (ref : RingRef) (r : Ring) : (s.setRing ref r).tape = s.tape := rfl
@[simp] theorem setRing_drawn (s : State) (ref : RingRef) (r : Ring) : (s.setRing ref r).drawn = s.drawn := rfl

/-! ## `setRxIe` -/

@[simp] theorem setRxIe_cfg (s : State) (d : Nat) (v : Bool) : (s.setRxIe d v).cfg = s.cfg := rfl
@[simp] theorem setRxIe_cmd (s : State) (d : Nat) (v : Bool) : (s.setRxIe d v).cmd = s.cmd := rfl
@[simp] theorem setRxIe_code (s : State) (d : Nat) (v : Bool) : (s.setRxIe d v).code = s.code := rfl
@[simp] theorem setRxIe_arg (s : State) (d : Nat) (v : Bool) : (s.setRxIe d v).arg = s.arg := rfl
@[simp] theorem setRxIe_res (s : State) (d : Nat) (v : Bool) : (s.setRxIe d v).res = s.res := rfl
@[simp] theorem setRxIe_blk (s : State) (d : Nat) (v : Bool) : (s.setRxIe d v).blk = s.blk := rfl
@[simp] theorem setRxIe_flt (s : State) (d : Nat) (v : Bool) : (s.setRxIe d v).flt = s.flt := rfl
@[simp] theorem setRxIe_cur (s : State) (d : Nat) (v : Bool) : (s.setRxIe d v).cur = s.cur := rfl
@[simp] theorem setRxIe_active (s : State) (d : Nat) (v : Bool) : (s.setRxIe d v).active = s.active := rfl
@[simp] theorem setRxIe_faults (s : State) (d : Nat) (v : Bool) : (s.setRxIe d v).faults = s.faults := rfl
@[simp] theorem setRxIe_host (s : State) (d : Nat) (v : Bool) : (s.setRxIe d v).host = s.host := rfl
@[simp] theorem setRxIe_pins (s : State) (d : Nat) (v : Bool) : (s.setRxIe d v).pins = s.pins := rfl
@[simp] theorem setRxIe_readData (s : State) (d : Nat) (v : Bool) : (s.setRxIe d v).readData = s.readData := rfl
@[simp] theorem setRxIe_sched (s : State) (d : Nat) (v : Bool) : (s.setRxIe d v).sched = s.sched := rfl
@[simp] theorem setRxIe_tape (s : State) (d : Nat) (v : Bool) : (s.setRxIe d v).tape = s.tape := rfl
@[simp] theorem setRxIe_drawn (s : State) (d : Nat) (v : Bool) : (s.setRxIe d v).drawn = s.drawn := rfl

/-! ## `setTxIe` -/

@[simp] theorem setTxIe_cfg (s : State) (d : Nat) (v : Bool) : (s.setTxIe d v).cfg = s.cfg := rfl
@[simp] theorem setTxIe_cmd (s : State) (d : Nat) (v : Bool) : (s.setTxIe d v).cmd = s.cmd := rfl
@[simp] theorem setTxIe_code (s : State) (d : Nat) (v : Bool) : (s.setTxIe d v).code = s.code := rfl
@[simp] theorem setTxIe_arg (s : State) (d : Nat) (v : Bool) : (s.setTxIe d v).arg = s.arg := rfl
@[simp] theorem setTxIe_res (s : State) (d : Nat) (v : Bool) : (s.setTxIe d v).res = s.res := rfl
@[simp] theorem setTxIe_blk (s : State) (d : Nat) (v : Bool) : (s.setTxIe d v).blk = s.blk := rfl
@[simp] theorem setTxIe_flt (s : State) (d : Nat) (v : Bool) : (s.setTxIe d v).flt = s.flt := rfl
@[simp] theorem setTxIe_cur (s : State) (d : Nat) (v : Bool) : (s.setTxIe d v).cur = s.cur := rfl
@[simp] theorem setTxIe_active (s : State) (d : Nat) (v : Bool) : (s.setTxIe d v).active = s.active := rfl
@[simp] theorem setTxIe_faults (s : State) (d : Nat) (v : Bool) : (s.setTxIe d v).faults = s.faults := rfl
@[simp] theorem setTxIe_host (s : State) (d : Nat) (v : Bool) : (s.setTxIe d v).host = s.host := rfl
@[simp] theorem setTxIe_pins (s : State) (d : Nat) (v : Bool) : (s.setTxIe d v).pins = s.pins := rfl
@[simp] theorem setTxIe_readData (s : State) (d : Nat) (v : Bool) : (s.setTxIe d v).readData = s.readData := rfl
@[simp] theorem setTxIe_sched (s : State) (d : Nat) (v : Bool) : (s.setTxIe d v).sched = s.sched := rfl
@[simp] theorem setTxIe_tape (s : State) (d : Nat) (v : Bool) : (s.setTxIe d v).tape = s.tape := rfl
@[simp] theorem setTxIe_drawn (s : State) (d : Nat) (v : Bool) : (s.setTxIe d v).drawn = s.drawn := rfl

/-! ## `envGpioWrite` -/

@[simp] theorem envGpioWrite_cfg (s : State) (pin : Nat) (v : Bool) : (s.envGpioWrite pin v).cfg = s.cfg := rfl
@[simp] theorem envGpioWrite_cmd (s : State) (pin : Nat) (v : Bool) : (s.envGpioWrite pin v).cmd = s.cmd := rfl
@[simp] theorem envGpioWrite_code (s : State) (pin : Nat) (v : Bool) : (s.envGpioWrite pin v).code = s.code := rfl
@[simp] theorem envGpioWrite_arg (s : State) (pin : Nat) (v : Bool) : (s.envGpioWrite pin v).arg = s.arg := rfl
@[simp] theorem envGpioWrite_res (s : State) (pin : Nat) (v : Bool) : (s.envGpioWrite pin v).res = s.res := rfl
@[simp] theorem envGpioWrite_blk (s : State) (pin : Nat) (v : Bool) : (s.envGpioWrite pin v).blk = s.blk := rfl
@[simp] theorem envGpioWrite_flt (s : State) (pin : Nat) (v : Bool) : (s.envGpioWrite pin v).flt = s.flt := rfl
@[simp] theorem envGpioWrite_cur (s : State) (pin : Nat) (v : Bool) : (s.envGpioWrite pin v).cur = s.cur := rfl
@[simp] theorem envGpioWrite_active (s : State) (pin : Nat) (v : Bool) : (s.envGpioWrite pin v).active = s.active := rfl
@[simp] theorem envGpioWrite_faults (s : State) (pin : Nat) (v : Bool) : (s.envGpioWrite pin v).faults = s.faults := rfl
@[simp] theorem envGpioWrite_host (s : State) (pin : Nat) (v : Bool) : (s.envGpioWrite pin v).host = s.host := rfl
@[simp] theorem envGpioWrite_dev (s : State) (pin : Nat) (v : Bool) : (s.envGpioWrite pin v).dev = s.dev := rfl
@[simp] theorem envGpioWrite_readData (s : State) (pin : Nat) (v : Bool) : (s.envGpioWrite pin v).readData = s.readData := rfl
@[simp] theorem envGpioWrite_sched (s : State) (pin : Nat) (v : Bool) : (s.envGpioWrite pin v).sched = s.sched := rfl
@[simp] theorem envGpioWrite_tape (s : State) (pin : Nat) (v : Bool) : (s.envGpioWrite pin v).tape = s.tape := rfl
@[simp] theorem envGpioWrite_drawn (s : State) (pin : Nat) (v : Bool) : (s.envGpioWrite pin v).drawn = s.drawn := rfl

/-! ## `driveTrx` -/

@[simp] theorem driveTrx_cfg (s : State) (d : Nat) (v : Bool) : (s.driveTrx d v).cfg = s.cfg := by unfold State.driveTrx; split <;> rfl
@[simp] theorem driveTrx_cmd (s : State) (d : Nat) (v : Bool) : (s.driveTrx d v).cmd = s.cmd := by unfold State.driveTrx; split <;> rfl
@[simp] theorem driveTrx_code (s : State) (d : Nat) (v : Bool) : (s.driveTrx d v).code = s.code := by unfold State.driveTrx; split <;> rfl
@[simp] theorem driveTrx_arg (s : State) (d : Nat) (v : Bool) : (s.driveTrx d v).arg = s.arg := by unfold State.driveTrx; split <;> rfl
@[simp] theorem driveTrx_res (s : State) (d : Nat) (v : Bool) : (s.driveTrx d v).res = s.res := by unfold State.driveTrx; split <;> rfl
@[simp] theorem driveTrx_blk (s : State) (d : Nat) (v : Bool) : (s.driveTrx d v).blk = s.blk := by unfold State.driveTrx; split <;> rfl
@[simp] theorem driveTrx_flt (s : State) (d : Nat) (v : Bool) : (s.driveTrx d v).flt = s.flt := by unfold State.driveTrx; split <;> rfl
@[simp] theorem driveTrx_cur (s : State) (d : Nat) (v : Bool) : (s.driveTrx d v).cur = s.cur := by unfold State.driveTrx; split <;> rfl
@[simp] theorem driveTrx_active (s : State) (d : Nat) (v : Bool) : (s.driveTrx d v).active = s.active := by unfold State.driveTrx; split <;> rfl
@[simp] theorem driveTrx_faults (s : State) (d : Nat) (v : Bool) : (s.driveTrx d v).faults = s.faults := by unfold State.driveTrx; split <;> rfl
@[simp] theorem driveTrx_host (s : State) (d : Nat) (v : Bool) : (s.driveTrx d v).host = s.host := by unfold State.driveTrx; split <;> rfl
@[simp] theorem driveTrx_dev (s : State) (d : Nat) (v : Bool) : (s.driveTrx d v).dev = s.dev := by unfold State.driveTrx; split <;> rfl
@[simp] theorem driveTrx_readData (s : State) (d : Nat) (v : Bool) : (s.driveTrx d v).readData = s.readData := by unfold State.driveTrx; split <;> rfl
@[simp] theorem driveTrx_sched (s : State) (d : Nat) (v : Bool) : (s.driveTrx d v).sched = s.sched := by unfold State.driveTrx; split <;> rfl
@[simp] theorem driveTrx_tape (s : State) (d : Nat) (v : Bool) : (s.driveTrx d v).tape = s.tape := by unfold State.driveTrx; split <;> rfl
@[simp] theorem driveTrx_drawn (s : State) (d : Nat) (v : Bool) : (s.driveTrx d v).drawn = s.drawn := by unfold State.driveTrx; split <;> rfl

/-! ## `setWp` -/

@[simp] theorem setWp_cfg (s : State) (a : Nat) (v : Bool) : (s.setWp a v).cfg = s.cfg := rfl
@[simp] theorem setWp_cmd (s : State) (a : Nat) (v : Bool) : (s.setWp a v).cmd = s.cmd := rfl
@[simp] theorem setWp_code (s : State) (a : Nat) (v : Bool) : (s.setWp a v).code = s.code := rfl
@[simp] theorem setWp_arg (s : State) (a : Nat) (v : Bool) : (s.setWp a v).arg = s.arg := rfl
@[simp] theorem setWp_res (s : State) (a : Nat) (v : Bool) : (s.setWp a v).res = s.res := rfl
@[simp] theorem setWp_dev (s : State) (a : Nat) (v : Bool) : (s.setWp a v).dev = s.dev := rfl
@[simp] theorem setWp_blk (s : State) (a : Nat) (v : Bool) : (s.setWp a v).blk = s.blk := rfl
@[simp] theorem setWp_cur (s : State) (a : Nat) (v : Bool) : (s.setWp a v).cur = s.cur := rfl
@[simp] theorem setWp_active (s : State) (a : Nat) (v : Bool) : (s.setWp a v).active = s.active := rfl
@[simp] theorem setWp_faults (s : State) (a : Nat) (v : Bool) : (s.setWp a v).faults = s.faults := rfl
@[simp] theorem setWp_host (s : State) (a : Nat) (v : Bool) : (s.setWp a v).host = s.host := rfl
@[simp] theorem setWp_pins (s : State) (a : Nat) (v : Bool) : (s.setWp a v).pins = s.pins := rfl
@[simp] theorem setWp_readData (s : State) (a : Nat) (v : Bool) : (s.setWp a v).readData = s.readData := rfl
@[simp] theorem setWp_sched (s : State) (a : Nat) (v : Bool) : (s.setWp a v).sched = s.sched := rfl
@[simp] theorem setWp_tape (s : State) (a : Nat) (v : Bool) : (s.setWp a v).tape = s.tape := rfl
@[simp] theorem setWp_drawn (s : State) (a : Nat) (v : Bool) : (s.setWp a v).drawn = s.drawn := rfl

/-! ## `setBank` -/

@[simp] theorem setBank_cfg (s : State) (a k : Nat) (x : Bank) : (s.setBank a k x).cfg = s.cfg := rfl
@[simp] theorem setBank_cmd (s : State) (a k : Nat) (x : Bank) : (s.setBank a k x).cmd = s.cmd := rfl
@[simp] theorem setBank_code (s : State) (a k : Nat) (x : Bank) : (s.setBank a k x).code = s.code := rfl
@[simp] theorem setBank_arg (s : State) (a k : Nat) (x : Bank) : (s.setBank a k x).arg = s.arg := rfl
@[simp] theorem setBank_res (s : State) (a k : Nat) (x : Bank) : (s.setBank a k x).res = s.res := rfl
@[simp] theorem setBank_dev (s : State) (a k : Nat) (x : Bank) : (s.setBank a k x).dev = s.dev := rfl
@[simp] theorem setBank_blk (s : State) (a k : Nat) (x : Bank) : (s.setBank a k x).blk = s.blk := rfl
@[simp] theorem setBank_cur (s : State) (a k : Nat) (x : Bank) : (s.setBank a k x).cur = s.cur := rfl
@[simp] theorem setBank_active (s : State) (a k : Nat) (x : Bank) : (s.setBank a k x).active = s.active := rfl
@[simp] theorem setBank_faults (s : State) (a k : Nat) (x : Bank) : (s.setBank a k x).faults = s.faults := rfl
@[simp] theorem setBank_host (s : State) (a k : Nat) (x : Bank) : (s.setBank a k x).host = s.host := rfl
@[simp] theorem setBank_pins (s : State) (a k : Nat) (x : Bank) : (s.setBank a k x).pins = s.pins := rfl
@[simp] theorem setBank_readData (s : State) (a k : Nat) (x : Bank) : (s.setBank a k x).readData = s.readData := rfl
@[simp] theorem setBank_sched (s : State) (a k : Nat) (x : Bank) : (s.setBank a k x).sched = s.sched := rfl
@[simp] theorem setBank_tape (s : State) (a k : Nat) (x : Bank) : (s.setBank a k x).tape = s.tape := rfl
@[simp] theorem setBank_drawn (s : State) (a k : Nat) (x : Bank) : (s.setBank a k x).drawn = s.drawn := rfl

/-! ## `configure` -/

@[simp] theorem configure_cfg (s : State) (a k : Nat) (p m : Word) (md sc en : Bool) : (s.configure a k p m md sc en).cfg = s.cfg := rfl
@[simp] theorem configure_cmd (s : State) (a k : Nat) (p m : Word) (md sc en : Bool) : (s.configure a k p m md sc en).cmd = s.cmd := rfl
@[simp] theorem configure_code (s : State) (a k : Nat) (p m : Word) (md sc en : Bool) : (s.configure a k p m md sc en).code = s.code := rfl
@[simp] theorem configure_arg (s : State) (a k : Nat) (p m : Word) (md sc en : Bool) : (s.configure a k p m md sc en).arg = s.arg := rfl
@[simp] theorem configure_res (s : State) (a k : Nat) (p m : Word) (md sc en : Bool) : (s.configure a k p m md sc en).res = s.res := rfl
@[simp] theorem configure_dev (s : State) (a k : Nat) (p m : Word) (md sc en : Bool) : (s.configure a k p m md sc en).dev = s.dev := rfl
@[simp] theorem configure_blk (s : State) (a k : Nat) (p m : Word) (md sc en : Bool) : (s.configure a k p m md sc en).blk = s.blk := rfl
@[simp] theorem configure_cur (s : State) (a k : Nat) (p m : Word) (md sc en : Bool) : (s.configure a k p m md sc en).cur = s.cur := rfl
@[simp] theorem configure_active (s : State) (a k : Nat) (p m : Word) (md sc en : Bool) : (s.configure a k p m md sc en).active = s.active := rfl
@[simp] theorem configure_faults (s : State) (a k : Nat) (p m : Word) (md sc en : Bool) : (s.configure a k p m md sc en).faults = s.faults := rfl
@[simp] theorem configure_host (s : State) (a k : Nat) (p m : Word) (md sc en : Bool) : (s.configure a k p m md sc en).host = s.host := rfl
@[simp] theorem configure_pins (s : State) (a k : Nat) (p m : Word) (md sc en : Bool) : (s.configure a k p m md sc en).pins = s.pins := rfl
@[simp] theorem configure_readData (s : State) (a k : Nat) (p m : Word) (md sc en : Bool) : (s.configure a k p m md sc en).readData = s.readData := rfl
@[simp] theorem configure_sched (s : State) (a k : Nat) (p m : Word) (md sc en : Bool) : (s.configure a k p m md sc en).sched = s.sched := rfl
@[simp] theorem configure_tape (s : State) (a k : Nat) (p m : Word) (md sc en : Bool) : (s.configure a k p m md sc en).tape = s.tape := rfl
@[simp] theorem configure_drawn (s : State) (a k : Nat) (p m : Word) (md sc en : Bool) : (s.configure a k p m md sc en).drawn = s.drawn := rfl

/-! ## `setActive` -/

@[simp] theorem setActive_cfg (s : State) (a k : Nat) (v : Bool) : (s.setActive a k v).cfg = s.cfg := rfl
@[simp] theorem setActive_cmd (s : State) (a k : Nat) (v : Bool) : (s.setActive a k v).cmd = s.cmd := rfl
@[simp] theorem setActive_code (s : State) (a k : Nat) (v : Bool) : (s.setActive a k v).code = s.code := rfl
@[simp] theorem setActive_arg (s : State) (a k : Nat) (v : Bool) : (s.setActive a k v).arg = s.arg := rfl
@[simp] theorem setActive_res (s : State) (a k : Nat) (v : Bool) : (s.setActive a k v).res = s.res := rfl
@[simp] theorem setActive_dev (s : State) (a k : Nat) (v : Bool) : (s.setActive a k v).dev = s.dev := rfl
@[simp] theorem setActive_blk (s : State) (a k : Nat) (v : Bool) : (s.setActive a k v).blk = s.blk := rfl
@[simp] theorem setActive_cur (s : State) (a k : Nat) (v : Bool) : (s.setActive a k v).cur = s.cur := rfl
@[simp] theorem setActive_active (s : State) (a k : Nat) (v : Bool) : (s.setActive a k v).active = s.active := rfl
@[simp] theorem setActive_faults (s : State) (a k : Nat) (v : Bool) : (s.setActive a k v).faults = s.faults := rfl
@[simp] theorem setActive_host (s : State) (a k : Nat) (v : Bool) : (s.setActive a k v).host = s.host := rfl
@[simp] theorem setActive_pins (s : State) (a k : Nat) (v : Bool) : (s.setActive a k v).pins = s.pins := rfl
@[simp] theorem setActive_readData (s : State) (a k : Nat) (v : Bool) : (s.setActive a k v).readData = s.readData := rfl
@[simp] theorem setActive_sched (s : State) (a k : Nat) (v : Bool) : (s.setActive a k v).sched = s.sched := rfl
@[simp] theorem setActive_tape (s : State) (a k : Nat) (v : Bool) : (s.setActive a k v).tape = s.tape := rfl
@[simp] theorem setActive_drawn (s : State) (a k : Nat) (v : Bool) : (s.setActive a k v).drawn = s.drawn := rfl

/-! ## `clearOwned` -/

@[simp] theorem clearOwned_cfg (s : State) (d : Nat) : (s.clearOwned d).cfg = s.cfg := rfl
@[simp] theorem clearOwned_cmd (s : State) (d : Nat) : (s.clearOwned d).cmd = s.cmd := rfl
@[simp] theorem clearOwned_code (s : State) (d : Nat) : (s.clearOwned d).code = s.code := rfl
@[simp] theorem clearOwned_arg (s : State) (d : Nat) : (s.clearOwned d).arg = s.arg := rfl
@[simp] theorem clearOwned_res (s : State) (d : Nat) : (s.clearOwned d).res = s.res := rfl
@[simp] theorem clearOwned_dev (s : State) (d : Nat) : (s.clearOwned d).dev = s.dev := rfl
@[simp] theorem clearOwned_blk (s : State) (d : Nat) : (s.clearOwned d).blk = s.blk := rfl
@[simp] theorem clearOwned_cur (s : State) (d : Nat) : (s.clearOwned d).cur = s.cur := rfl
@[simp] theorem clearOwned_active (s : State) (d : Nat) : (s.clearOwned d).active = s.active := rfl
@[simp] theorem clearOwned_faults (s : State) (d : Nat) : (s.clearOwned d).faults = s.faults := rfl
@[simp] theorem clearOwned_host (s : State) (d : Nat) : (s.clearOwned d).host = s.host := rfl
@[simp] theorem clearOwned_pins (s : State) (d : Nat) : (s.clearOwned d).pins = s.pins := rfl
@[simp] theorem clearOwned_readData (s : State) (d : Nat) : (s.clearOwned d).readData = s.readData := rfl
@[simp] theorem clearOwned_sched (s : State) (d : Nat) : (s.clearOwned d).sched = s.sched := rfl
@[simp] theorem clearOwned_tape (s : State) (d : Nat) : (s.clearOwned d).tape = s.tape := rfl
@[simp] theorem clearOwned_drawn (s : State) (d : Nat) : (s.clearOwned d).drawn = s.drawn := rfl

/-! ## `goto` -/

@[simp] theorem goto_cfg (s : State) (a : Agent) (p : Pos) : (s.goto a p).cfg = s.cfg := by cases a <;> rfl
@[simp] theorem goto_cmd (s : State) (a : Agent) (p : Pos) : (s.goto a p).cmd = s.cmd := by cases a <;> rfl
@[simp] theorem goto_code (s : State) (a : Agent) (p : Pos) : (s.goto a p).code = s.code := by cases a <;> rfl
@[simp] theorem goto_arg (s : State) (a : Agent) (p : Pos) : (s.goto a p).arg = s.arg := by cases a <;> rfl
@[simp] theorem goto_res (s : State) (a : Agent) (p : Pos) : (s.goto a p).res = s.res := by cases a <;> rfl
@[simp] theorem goto_dev (s : State) (a : Agent) (p : Pos) : (s.goto a p).dev = s.dev := by cases a <;> rfl
@[simp] theorem goto_blk (s : State) (a : Agent) (p : Pos) : (s.goto a p).blk = s.blk := by cases a <;> rfl
@[simp] theorem goto_flt (s : State) (a : Agent) (p : Pos) : (s.goto a p).flt = s.flt := by cases a <;> rfl
@[simp] theorem goto_faults (s : State) (a : Agent) (p : Pos) : (s.goto a p).faults = s.faults := by cases a <;> rfl
@[simp] theorem goto_host (s : State) (a : Agent) (p : Pos) : (s.goto a p).host = s.host := by cases a <;> rfl
@[simp] theorem goto_pins (s : State) (a : Agent) (p : Pos) : (s.goto a p).pins = s.pins := by cases a <;> rfl
@[simp] theorem goto_readData (s : State) (a : Agent) (p : Pos) : (s.goto a p).readData = s.readData := by cases a <;> rfl
@[simp] theorem goto_sched (s : State) (a : Agent) (p : Pos) : (s.goto a p).sched = s.sched := by cases a <;> rfl
@[simp] theorem goto_tape (s : State) (a : Agent) (p : Pos) : (s.goto a p).tape = s.tape := by cases a <;> rfl
@[simp] theorem goto_drawn (s : State) (a : Agent) (p : Pos) : (s.goto a p).drawn = s.drawn := by cases a <;> rfl

/-! ## `enterHandler` -/

@[simp] theorem enterHandler_cfg (s : State) (h : Handler) (p : Pos) : (s.enterHandler h p).cfg = s.cfg := rfl
@[simp] theorem enterHandler_cmd (s : State) (h : Handler) (p : Pos) : (s.enterHandler h p).cmd = s.cmd := rfl
@[simp] theorem enterHandler_code (s : State) (h : Handler) (p : Pos) : (s.enterHandler h p).code = s.code := rfl
@[simp] theorem enterHandler_arg (s : State) (h : Handler) (p : Pos) : (s.enterHandler h p).arg = s.arg := rfl
@[simp] theorem enterHandler_res (s : State) (h : Handler) (p : Pos) : (s.enterHandler h p).res = s.res := rfl
@[simp] theorem enterHandler_dev (s : State) (h : Handler) (p : Pos) : (s.enterHandler h p).dev = s.dev := rfl
@[simp] theorem enterHandler_blk (s : State) (h : Handler) (p : Pos) : (s.enterHandler h p).blk = s.blk := rfl
@[simp] theorem enterHandler_flt (s : State) (h : Handler) (p : Pos) : (s.enterHandler h p).flt = s.flt := rfl
@[simp] theorem enterHandler_cur (s : State) (h : Handler) (p : Pos) : (s.enterHandler h p).cur = s.cur := rfl
@[simp] theorem enterHandler_faults (s : State) (h : Handler) (p : Pos) : (s.enterHandler h p).faults = s.faults := rfl
@[simp] theorem enterHandler_host (s : State) (h : Handler) (p : Pos) : (s.enterHandler h p).host = s.host := rfl
@[simp] theorem enterHandler_pins (s : State) (h : Handler) (p : Pos) : (s.enterHandler h p).pins = s.pins := rfl
@[simp] theorem enterHandler_readData (s : State) (h : Handler) (p : Pos) : (s.enterHandler h p).readData = s.readData := rfl
@[simp] theorem enterHandler_sched (s : State) (h : Handler) (p : Pos) : (s.enterHandler h p).sched = s.sched := rfl
@[simp] theorem enterHandler_tape (s : State) (h : Handler) (p : Pos) : (s.enterHandler h p).tape = s.tape := rfl
@[simp] theorem enterHandler_drawn (s : State) (h : Handler) (p : Pos) : (s.enterHandler h p).drawn = s.drawn := rfl

/-! ## `exitHandler` -/

@[simp] theorem exitHandler_cfg (s : State) (h : Handler) : (s.exitHandler h).cfg = s.cfg := rfl
@[simp] theorem exitHandler_cmd (s : State) (h : Handler) : (s.exitHandler h).cmd = s.cmd := rfl
@[simp] theorem exitHandler_code (s : State) (h : Handler) : (s.exitHandler h).code = s.code := rfl
@[simp] theorem exitHandler_arg (s : State) (h : Handler) : (s.exitHandler h).arg = s.arg := rfl
@[simp] theorem exitHandler_res (s : State) (h : Handler) : (s.exitHandler h).res = s.res := rfl
@[simp] theorem exitHandler_dev (s : State) (h : Handler) : (s.exitHandler h).dev = s.dev := rfl
@[simp] theorem exitHandler_blk (s : State) (h : Handler) : (s.exitHandler h).blk = s.blk := rfl
@[simp] theorem exitHandler_flt (s : State) (h : Handler) : (s.exitHandler h).flt = s.flt := rfl
@[simp] theorem exitHandler_cur (s : State) (h : Handler) : (s.exitHandler h).cur = s.cur := rfl
@[simp] theorem exitHandler_faults (s : State) (h : Handler) : (s.exitHandler h).faults = s.faults := rfl
@[simp] theorem exitHandler_host (s : State) (h : Handler) : (s.exitHandler h).host = s.host := rfl
@[simp] theorem exitHandler_pins (s : State) (h : Handler) : (s.exitHandler h).pins = s.pins := rfl
@[simp] theorem exitHandler_readData (s : State) (h : Handler) : (s.exitHandler h).readData = s.readData := rfl
@[simp] theorem exitHandler_sched (s : State) (h : Handler) : (s.exitHandler h).sched = s.sched := rfl
@[simp] theorem exitHandler_tape (s : State) (h : Handler) : (s.exitHandler h).tape = s.tape := rfl
@[simp] theorem exitHandler_drawn (s : State) (h : Handler) : (s.exitHandler h).drawn = s.drawn := rfl

/-! ## `raise` -/

@[simp] theorem raise_cfg (s : State) (a : Agent) (f : ModelFault) : (s.raise a f).cfg = s.cfg := by unfold State.raise; split <;> rfl
@[simp] theorem raise_cmd (s : State) (a : Agent) (f : ModelFault) : (s.raise a f).cmd = s.cmd := by unfold State.raise; split <;> rfl
@[simp] theorem raise_code (s : State) (a : Agent) (f : ModelFault) : (s.raise a f).code = s.code := by unfold State.raise; split <;> rfl
@[simp] theorem raise_arg (s : State) (a : Agent) (f : ModelFault) : (s.raise a f).arg = s.arg := by unfold State.raise; split <;> rfl
@[simp] theorem raise_res (s : State) (a : Agent) (f : ModelFault) : (s.raise a f).res = s.res := by unfold State.raise; split <;> rfl
@[simp] theorem raise_dev (s : State) (a : Agent) (f : ModelFault) : (s.raise a f).dev = s.dev := by unfold State.raise; split <;> rfl
@[simp] theorem raise_blk (s : State) (a : Agent) (f : ModelFault) : (s.raise a f).blk = s.blk := by unfold State.raise; split <;> rfl
@[simp] theorem raise_flt (s : State) (a : Agent) (f : ModelFault) : (s.raise a f).flt = s.flt := by unfold State.raise; split <;> rfl
@[simp] theorem raise_cur (s : State) (a : Agent) (f : ModelFault) : (s.raise a f).cur = s.cur := by unfold State.raise; split <;> rfl
@[simp] theorem raise_active (s : State) (a : Agent) (f : ModelFault) : (s.raise a f).active = s.active := by unfold State.raise; split <;> rfl
@[simp] theorem raise_host (s : State) (a : Agent) (f : ModelFault) : (s.raise a f).host = s.host := by unfold State.raise; split <;> rfl
@[simp] theorem raise_pins (s : State) (a : Agent) (f : ModelFault) : (s.raise a f).pins = s.pins := by unfold State.raise; split <;> rfl
@[simp] theorem raise_readData (s : State) (a : Agent) (f : ModelFault) : (s.raise a f).readData = s.readData := by unfold State.raise; split <;> rfl
@[simp] theorem raise_sched (s : State) (a : Agent) (f : ModelFault) : (s.raise a f).sched = s.sched := by unfold State.raise; split <;> rfl
@[simp] theorem raise_tape (s : State) (a : Agent) (f : ModelFault) : (s.raise a f).tape = s.tape := by unfold State.raise; split <;> rfl
@[simp] theorem raise_drawn (s : State) (a : Agent) (f : ModelFault) : (s.raise a f).drawn = s.drawn := by unfold State.raise; split <;> rfl

/-! ## `afterDraw` -/

@[simp] theorem afterDraw_cfg (s : State) : (s.afterDraw).cfg = s.cfg := rfl
@[simp] theorem afterDraw_cmd (s : State) : (s.afterDraw).cmd = s.cmd := rfl
@[simp] theorem afterDraw_code (s : State) : (s.afterDraw).code = s.code := rfl
@[simp] theorem afterDraw_arg (s : State) : (s.afterDraw).arg = s.arg := rfl
@[simp] theorem afterDraw_res (s : State) : (s.afterDraw).res = s.res := rfl
@[simp] theorem afterDraw_dev (s : State) : (s.afterDraw).dev = s.dev := rfl
@[simp] theorem afterDraw_blk (s : State) : (s.afterDraw).blk = s.blk := rfl
@[simp] theorem afterDraw_flt (s : State) : (s.afterDraw).flt = s.flt := rfl
@[simp] theorem afterDraw_cur (s : State) : (s.afterDraw).cur = s.cur := rfl
@[simp] theorem afterDraw_active (s : State) : (s.afterDraw).active = s.active := rfl
@[simp] theorem afterDraw_faults (s : State) : (s.afterDraw).faults = s.faults := rfl
@[simp] theorem afterDraw_host (s : State) : (s.afterDraw).host = s.host := rfl
@[simp] theorem afterDraw_pins (s : State) : (s.afterDraw).pins = s.pins := rfl
@[simp] theorem afterDraw_readData (s : State) : (s.afterDraw).readData = s.readData := rfl
@[simp] theorem afterDraw_sched (s : State) : (s.afterDraw).sched = s.sched := rfl

/-! ## `finish` -/

@[simp] theorem finish_cfg (s : State) (c : StatusCode) (l : List Word) : (s.finish c l).cfg = s.cfg := rfl
@[simp] theorem finish_cmd (s : State) (c : StatusCode) (l : List Word) : (s.finish c l).cmd = s.cmd := rfl
@[simp] theorem finish_arg (s : State) (c : StatusCode) (l : List Word) : (s.finish c l).arg = s.arg := rfl
@[simp] theorem finish_dev (s : State) (c : StatusCode) (l : List Word) : (s.finish c l).dev = s.dev := rfl
@[simp] theorem finish_blk (s : State) (c : StatusCode) (l : List Word) : (s.finish c l).blk = s.blk := rfl
@[simp] theorem finish_flt (s : State) (c : StatusCode) (l : List Word) : (s.finish c l).flt = s.flt := rfl
@[simp] theorem finish_active (s : State) (c : StatusCode) (l : List Word) : (s.finish c l).active = s.active := rfl
@[simp] theorem finish_faults (s : State) (c : StatusCode) (l : List Word) : (s.finish c l).faults = s.faults := rfl
@[simp] theorem finish_host (s : State) (c : StatusCode) (l : List Word) : (s.finish c l).host = s.host := rfl
@[simp] theorem finish_pins (s : State) (c : StatusCode) (l : List Word) : (s.finish c l).pins = s.pins := rfl
@[simp] theorem finish_readData (s : State) (c : StatusCode) (l : List Word) : (s.finish c l).readData = s.readData := rfl
@[simp] theorem finish_sched (s : State) (c : StatusCode) (l : List Word) : (s.finish c l).sched = s.sched := rfl
@[simp] theorem finish_tape (s : State) (c : StatusCode) (l : List Word) : (s.finish c l).tape = s.tape := rfl
@[simp] theorem finish_drawn (s : State) (c : StatusCode) (l : List Word) : (s.finish c l).drawn = s.drawn := rfl

/-! ## `loadMailbox` -/

@[simp] theorem loadMailbox_cfg (s : State) (b : Nat) (f : Frame) : (s.loadMailbox b f).cfg = s.cfg := rfl
@[simp] theorem loadMailbox_cmd (s : State) (b : Nat) (f : Frame) : (s.loadMailbox b f).cmd = s.cmd := rfl
@[simp] theorem loadMailbox_code (s : State) (b : Nat) (f : Frame) : (s.loadMailbox b f).code = s.code := rfl
@[simp] theorem loadMailbox_arg (s : State) (b : Nat) (f : Frame) : (s.loadMailbox b f).arg = s.arg := rfl
@[simp] theorem loadMailbox_res (s : State) (b : Nat) (f : Frame) : (s.loadMailbox b f).res = s.res := rfl
@[simp] theorem loadMailbox_dev (s : State) (b : Nat) (f : Frame) : (s.loadMailbox b f).dev = s.dev := rfl
@[simp] theorem loadMailbox_flt (s : State) (b : Nat) (f : Frame) : (s.loadMailbox b f).flt = s.flt := rfl
@[simp] theorem loadMailbox_cur (s : State) (b : Nat) (f : Frame) : (s.loadMailbox b f).cur = s.cur := rfl
@[simp] theorem loadMailbox_active (s : State) (b : Nat) (f : Frame) : (s.loadMailbox b f).active = s.active := rfl
@[simp] theorem loadMailbox_faults (s : State) (b : Nat) (f : Frame) : (s.loadMailbox b f).faults = s.faults := rfl
@[simp] theorem loadMailbox_host (s : State) (b : Nat) (f : Frame) : (s.loadMailbox b f).host = s.host := rfl
@[simp] theorem loadMailbox_pins (s : State) (b : Nat) (f : Frame) : (s.loadMailbox b f).pins = s.pins := rfl
@[simp] theorem loadMailbox_readData (s : State) (b : Nat) (f : Frame) : (s.loadMailbox b f).readData = s.readData := rfl
@[simp] theorem loadMailbox_sched (s : State) (b : Nat) (f : Frame) : (s.loadMailbox b f).sched = s.sched := rfl
@[simp] theorem loadMailbox_tape (s : State) (b : Nat) (f : Frame) : (s.loadMailbox b f).tape = s.tape := rfl
@[simp] theorem loadMailbox_drawn (s : State) (b : Nat) (f : Frame) : (s.loadMailbox b f).drawn = s.drawn := rfl

/-! ## `popFifo` -/

@[simp] theorem popFifo_cfg (s : State) (b : Nat) : (s.popFifo b).cfg = s.cfg := rfl
@[simp] theorem popFifo_cmd (s : State) (b : Nat) : (s.popFifo b).cmd = s.cmd := rfl
@[simp] theorem popFifo_code (s : State) (b : Nat) : (s.popFifo b).code = s.code := rfl
@[simp] theorem popFifo_arg (s : State) (b : Nat) : (s.popFifo b).arg = s.arg := rfl
@[simp] theorem popFifo_res (s : State) (b : Nat) : (s.popFifo b).res = s.res := rfl
@[simp] theorem popFifo_dev (s : State) (b : Nat) : (s.popFifo b).dev = s.dev := rfl
@[simp] theorem popFifo_flt (s : State) (b : Nat) : (s.popFifo b).flt = s.flt := rfl
@[simp] theorem popFifo_cur (s : State) (b : Nat) : (s.popFifo b).cur = s.cur := rfl
@[simp] theorem popFifo_active (s : State) (b : Nat) : (s.popFifo b).active = s.active := rfl
@[simp] theorem popFifo_faults (s : State) (b : Nat) : (s.popFifo b).faults = s.faults := rfl
@[simp] theorem popFifo_host (s : State) (b : Nat) : (s.popFifo b).host = s.host := rfl
@[simp] theorem popFifo_pins (s : State) (b : Nat) : (s.popFifo b).pins = s.pins := rfl
@[simp] theorem popFifo_readData (s : State) (b : Nat) : (s.popFifo b).readData = s.readData := rfl
@[simp] theorem popFifo_sched (s : State) (b : Nat) : (s.popFifo b).sched = s.sched := rfl
@[simp] theorem popFifo_tape (s : State) (b : Nat) : (s.popFifo b).tape = s.tape := rfl
@[simp] theorem popFifo_drawn (s : State) (b : Nat) : (s.popFifo b).drawn = s.drawn := rfl

/-! ## `hwDeinit` -/

@[simp] theorem hwDeinit_cfg (s : State) (b : Nat) : (s.hwDeinit b).cfg = s.cfg := rfl
@[simp] theorem hwDeinit_cmd (s : State) (b : Nat) : (s.hwDeinit b).cmd = s.cmd := rfl
@[simp] theorem hwDeinit_code (s : State) (b : Nat) : (s.hwDeinit b).code = s.code := rfl
@[simp] theorem hwDeinit_arg (s : State) (b : Nat) : (s.hwDeinit b).arg = s.arg := rfl
@[simp] theorem hwDeinit_res (s : State) (b : Nat) : (s.hwDeinit b).res = s.res := rfl
@[simp] theorem hwDeinit_dev (s : State) (b : Nat) : (s.hwDeinit b).dev = s.dev := rfl
@[simp] theorem hwDeinit_flt (s : State) (b : Nat) : (s.hwDeinit b).flt = s.flt := rfl
@[simp] theorem hwDeinit_cur (s : State) (b : Nat) : (s.hwDeinit b).cur = s.cur := rfl
@[simp] theorem hwDeinit_active (s : State) (b : Nat) : (s.hwDeinit b).active = s.active := rfl
@[simp] theorem hwDeinit_faults (s : State) (b : Nat) : (s.hwDeinit b).faults = s.faults := rfl
@[simp] theorem hwDeinit_host (s : State) (b : Nat) : (s.hwDeinit b).host = s.host := rfl
@[simp] theorem hwDeinit_pins (s : State) (b : Nat) : (s.hwDeinit b).pins = s.pins := rfl
@[simp] theorem hwDeinit_readData (s : State) (b : Nat) : (s.hwDeinit b).readData = s.readData := rfl
@[simp] theorem hwDeinit_sched (s : State) (b : Nat) : (s.hwDeinit b).sched = s.sched := rfl
@[simp] theorem hwDeinit_tape (s : State) (b : Nat) : (s.hwDeinit b).tape = s.tape := rfl
@[simp] theorem hwDeinit_drawn (s : State) (b : Nat) : (s.hwDeinit b).drawn = s.drawn := rfl
/-! ## The written fields -/

@[simp] theorem finish_code (s : State) (c : StatusCode) (l : List Word) : (s.finish c l).code = c := rfl
@[simp] theorem finish_res (s : State) (c : StatusCode) (l : List Word) : (s.finish c l).res = Words8.ofList l := rfl
@[simp] theorem finish_cur (s : State) (c : StatusCode) (l : List Word) : (s.finish c l).cur = none := rfl
@[simp] theorem finish_busy (s : State) (c : StatusCode) (l : List Word) : (s.finish c l).busy = false := rfl
@[simp] theorem goto_app_cur (s : State) (p : Pos) : (s.goto .app p).cur = some p := rfl
@[simp] theorem goto_app_active (s : State) (p : Pos) : (s.goto .app p).active = s.active := rfl
@[simp] theorem goto_engine_cur (s : State) (h : Handler) (p : Pos) : (s.goto (.engine h) p).cur = s.cur := rfl
@[simp] theorem afterDraw_tape (s : State) : s.afterDraw.tape = s.tape.tail := rfl
@[simp] theorem afterDraw_drawn (s : State) : s.afterDraw.drawn = s.drawn + 1 := rfl
@[simp] theorem enterHandler_active (s : State) (h : Handler) (p : Pos) :
    (s.enterHandler h p).active = s.active ++ [⟨h, p⟩] := rfl

/-! ## Views that depend on `cfg` alone -/

theorem desc_eq_of_cfg {s t : State} (h : t.cfg = s.cfg) (d : Nat) : t.desc d = s.desc d := by
  simp [State.desc, h]

theorem blockOf_eq_of_cfg {s t : State} (h : t.cfg = s.cfg) (d : Nat) : t.blockOf d = s.blockOf d := by
  simp [State.blockOf, desc_eq_of_cfg h]

theorem farrayOf_eq_of_cfg {s t : State} (h : t.cfg = s.cfg) (d : Nat) : t.farrayOf d = s.farrayOf d := by
  simp [State.farrayOf, desc_eq_of_cfg h]

theorem ownsBank_eq_of_cfg {s t : State} (h : t.cfg = s.cfg) (d k : Nat) : t.ownsBank d k = s.ownsBank d k := by
  simp [State.ownsBank, desc_eq_of_cfg h]

theorem prio_eq_of_cfg {s t : State} (h : t.cfg = s.cfg) (g : Handler) : t.prio g = s.prio g := by
  simp [State.prio, desc_eq_of_cfg h]

/-! ## Views that depend on one table -/

theorem stopped_eq_of_faults {s t : State} (h : t.faults = s.faults) (a : Agent) : t.stopped a = s.stopped a := by
  simp [State.stopped, h]

theorem busy_eq_of_cur {s t : State} (h : t.cur = s.cur) : t.busy = s.busy := by
  simp [State.busy, h]

theorem device_eq_of_dev {s t : State} (h : t.dev = s.dev) (d : Nat) : t.device d = s.device d := by
  simp [State.device, h]

theorem block_eq_of_blk {s t : State} (h : t.blk = s.blk) (b : Nat) : t.block b = s.block b := by
  simp [State.block, h]

theorem array_eq_of_flt {s t : State} (h : t.flt = s.flt) (a : Nat) : t.array a = s.array a := by
  simp [State.array, h]

theorem bank_eq_of_flt {s t : State} (h : t.flt = s.flt) (a k : Nat) : t.bank a k = s.bank a k := by
  simp [State.bank, array_eq_of_flt h]

theorem ring_eq_of_dev {s t : State} (h : t.dev = s.dev) (r : RingRef) : t.ring r = s.ring r := by
  simp [State.ring, device_eq_of_dev h]

/-! ## Reads after writes of the tables -/

theorem device_setDevice_self (s : State) {d : Nat} (x : DevState) (h : d < s.dev.length) :
    (s.setDevice d x).device d = x := by
  simp [State.setDevice, State.device, List.getD_eq_getElem?_getD, h]

theorem device_setDevice_ne (s : State) {d e : Nat} (x : DevState) (h : d ≠ e) :
    (s.setDevice d x).device e = s.device e := by
  simp [State.setDevice, State.device, List.getD_eq_getElem?_getD, List.getElem?_set_ne h]

/-- A write past the end of the table has no effect. -/
theorem setDevice_of_length_le (s : State) {d : Nat} (x : DevState) (h : s.dev.length ≤ d) : s.setDevice d x = s := by
  simp [State.setDevice, List.set_eq_of_length_le h]

theorem block_setBlock_self (s : State) {b : Nat} (x : BlockState) (h : b < s.blk.length) :
    (s.setBlock b x).block b = x := by
  simp [State.setBlock, State.block, List.getD_eq_getElem?_getD, h]

theorem block_setBlock_ne (s : State) {b c : Nat} (x : BlockState) (h : b ≠ c) :
    (s.setBlock b x).block c = s.block c := by
  simp [State.setBlock, State.block, List.getD_eq_getElem?_getD, List.getElem?_set_ne h]

theorem array_setArray_self (s : State) {a : Nat} (x : FilterArray) (h : a < s.flt.length) :
    (s.setArray a x).array a = x := by
  simp [State.setArray, State.array, List.getD_eq_getElem?_getD, h]

theorem array_setArray_ne (s : State) {a b : Nat} (x : FilterArray) (h : a ≠ b) :
    (s.setArray a x).array b = s.array b := by
  simp [State.setArray, State.array, List.getD_eq_getElem?_getD, List.getElem?_set_ne h]

theorem DevState.ring_setRing_self (x : DevState) (sel : RingSel) (r : Ring) : (x.setRing sel r).ring sel = r := by
  cases sel <;> rfl

theorem DevState.ring_setRing_ne (x : DevState) {a b : RingSel} (r : Ring) (h : a ≠ b) :
    (x.setRing a r).ring b = x.ring b := by
  cases a <;> cases b <;> first | rfl | exact absurd rfl h

@[simp] theorem DevState.setRing_st (x : DevState) (sel : RingSel) (r : Ring) : (x.setRing sel r).st = x.st := by
  cases sel <;> rfl

@[simp] theorem DevState.setRing_rxIe (x : DevState) (sel : RingSel) (r : Ring) :
    (x.setRing sel r).rxIe = x.rxIe := by cases sel <;> rfl

@[simp] theorem DevState.setRing_txIe (x : DevState) (sel : RingSel) (r : Ring) :
    (x.setRing sel r).txIe = x.txIe := by cases sel <;> rfl

theorem ring_setRing_self (s : State) {ref : RingRef} (r : Ring) (h : ref.dev < s.dev.length) :
    (s.setRing ref r).ring ref = r := by
  simp [State.setRing, State.ring, device_setDevice_self _ _ h, DevState.ring_setRing_self]

theorem ring_setRing_ne (s : State) {a b : RingRef} (r : Ring) (h : a ≠ b) :
    (s.setRing a r).ring b = s.ring b := by
  unfold State.setRing State.ring
  by_cases hd : a.dev = b.dev
  · have hs : a.sel ≠ b.sel := fun hs => h (by cases a; cases b; simp_all)
    by_cases hl : a.dev < s.dev.length
    · rw [← hd, device_setDevice_self _ _ hl, DevState.ring_setRing_ne _ _ hs]
    · rw [setDevice_of_length_le _ _ (Nat.le_of_not_lt hl)]
  · rw [device_setDevice_ne _ _ hd]

@[simp] theorem setDevice_dev_length (s : State) (d : Nat) (x : DevState) :
    (s.setDevice d x).dev.length = s.dev.length := by simp [State.setDevice]

@[simp] theorem setRing_dev_length (s : State) (ref : RingRef) (r : Ring) :
    (s.setRing ref r).dev.length = s.dev.length := by simp [State.setRing]

@[simp] theorem setBlock_blk_length (s : State) (b : Nat) (x : BlockState) :
    (s.setBlock b x).blk.length = s.blk.length := by simp [State.setBlock]

@[simp] theorem setArray_flt_length (s : State) (a : Nat) (x : FilterArray) :
    (s.setArray a x).flt.length = s.flt.length := by simp [State.setArray]

/-! ## Filter arrays -/

/-- Writing a bank inside the write-protect bracket: the bank's registers, and no other bank of any array. -/
theorem bank_configure_self (s : State) {a k : Nat} (p m : Word) (md sc en : Bool) (ha : a < s.flt.length)
    (hk : k < (s.array a).banks.length) :
    (s.configure a k p m md sc en).bank a k = { fr1 := p, fr2 := m, fm := md, fs := sc, fa := en, fcfg := true } := by
  simp [State.configure, State.setWp, State.setBank, State.bank, FilterArray.bank, array_setArray_self, ha, hk,
    List.getD_eq_getElem?_getD]

theorem bank_configure_ne (s : State) {a k a' k' : Nat} (p m : Word) (md sc en : Bool) (h : a ≠ a' ∨ k ≠ k') :
    (s.configure a k p m md sc en).bank a' k' = s.bank a' k' := by
  by_cases ha : a = a'
  · subst ha
    have hk : k ≠ k' := by omega
    by_cases hl : a < s.flt.length
    · simp [State.configure, State.setWp, State.setBank, State.bank, FilterArray.bank, array_setArray_self, hl,
        List.getD_eq_getElem?_getD, List.getElem?_set_ne hk]
    · have hs : ∀ (l : List FilterArray) (x : FilterArray), l.length ≤ a → l.set a x = l :=
        fun l x h => List.set_eq_of_length_le h
      simp [State.configure, State.setWp, State.setBank, State.bank, State.setArray, State.array, hs, Nat.le_of_not_lt hl]
  · simp [State.configure, State.setWp, State.setBank, State.bank, array_setArray_ne _ _ ha]

/-! ## Handler positions -/

/-- A handler is in `ACTIVE` exactly when it has a position. -/
theorem isActive_iff_handlerPos (s : State) (h : Handler) : s.isActive h = true ↔ (s.handlerPos h).isSome = true := by
  simp [State.isActive, State.handlerPos]

end Machine
end Sys2Proof
end

