-- ==== Sys2Proof/Laws/Memory.lean ====
section
/-!
SUPPORT. Tables and slot RAM (spec/20_memory.md R53, R55): reads after writes, and the canonical form that every write keeps.
-/

namespace Sys2Proof
namespace Machine

/-! ## Tables -/

theorem Table.read_write_self {α : Type} (m : List (Nat × α)) (a : Nat) (b : α) : Table.read (Table.write m a b) a = some b := by
  induction m with
  | nil => simp [Table.write, Table.read]
  | cons c m ih =>
    obtain ⟨k, v⟩ := c
    unfold Table.write
    split
    · simp [Table.read]
    · split
      · simp [Table.read]
      · rename_i h
        simp [Table.read, Ne.symm h, ih]

theorem Table.read_write_ne {α : Type} (m : List (Nat × α)) {a c : Nat} (b : α) (h : c ≠ a) :
    Table.read (Table.write m a b) c = Table.read m c := by
  induction m with
  | nil => simp [Table.write, Table.read, Ne.symm h]
  | cons e m ih =>
    obtain ⟨k, v⟩ := e
    unfold Table.write
    split
    · simp [Table.read, Ne.symm h]
    · split
      · rename_i hk
        subst hk
        simp [Table.read, Ne.symm h]
      · simp [Table.read, ih]

theorem Table.mem_write {α : Type} {m : List (Nat × α)} {a : Nat} {b : α} {c : Nat × α} (h : c ∈ Table.write m a b) :
    c = (a, b) ∨ c ∈ m := by
  induction m with
  | nil => simpa [Table.write] using h
  | cons e m ih =>
    obtain ⟨k, v⟩ := e
    unfold Table.write at h
    split at h
    · simpa using h
    · split at h
      · rcases List.mem_cons.1 h with h | h
        · exact .inl h
        · exact .inr (List.mem_cons_of_mem _ h)
      · rcases List.mem_cons.1 h with h | h
        · exact .inr (h ▸ List.mem_cons_self)
        · exact (ih h).imp_right (List.mem_cons_of_mem _)

/-- A write keeps the canonical form. -/
theorem Table.wf_write {α : Type} {m : List (Nat × α)} (a : Nat) (b : α) (h : Table.wf m) : Table.wf (Table.write m a b) := by
  induction m with
  | nil => simp [Table.write, Table.wf]
  | cons e m ih =>
    obtain ⟨k, v⟩ := e
    obtain ⟨hk, hm⟩ := List.pairwise_cons.1 h
    unfold Table.write
    split
    · rename_i ha
      refine List.pairwise_cons.2 ⟨fun x hx => ?_, h⟩
      rcases List.mem_cons.1 hx with rfl | hx
      · exact ha
      · exact lt_trans ha (hk x hx)
    · split
      · rename_i ha
        subst ha
        exact List.pairwise_cons.2 ⟨hk, hm⟩
      · refine List.pairwise_cons.2 ⟨fun x hx => ?_, ih hm⟩
        rcases Table.mem_write hx with rfl | hx
        · show k < a
          omega
        · exact hk x hx

/-! ## One byte -/

theorem Memory.read_write_self (m : Memory) (a : Nat) (b : Byte) : Memory.read (Memory.write m a b) a = some b :=
  Table.read_write_self m a b

theorem Memory.read_write_ne (m : Memory) {a c : Nat} (b : Byte) (h : c ≠ a) :
    Memory.read (Memory.write m a b) c = Memory.read m c := Table.read_write_ne m b h

theorem Memory.mem_write {m : Memory} {a : Nat} {b : Byte} {c : Host.Cell} (h : c ∈ Memory.write m a b) :
    c = (a, b) ∨ c ∈ m := Table.mem_write h

/-- A write keeps the canonical form. -/
theorem Memory.wf_write {m : Memory} (a : Nat) (b : Byte) (h : Memory.wf m) : Memory.wf (Memory.write m a b) :=
  Table.wf_write a b h

/-! ## One word -/

theorem Memory.wf_writeWord {m : Memory} (a : Nat) (v : Word) (h : Memory.wf m) : Memory.wf (Memory.writeWord m a v) :=
  Memory.wf_write _ _ (Memory.wf_write _ _ (Memory.wf_write _ _ (Memory.wf_write _ _ h)))

theorem Memory.mem_writeWord {m : Memory} {a : Nat} {v : Word} {c : Host.Cell} (h : c ∈ Memory.writeWord m a v) :
    (a ≤ c.1 ∧ c.1 < a + 4) ∨ c ∈ m := by
  unfold Memory.writeWord at h
  rcases Memory.mem_write h with rfl | h
  · exact .inl ⟨by simp, by simp⟩
  rcases Memory.mem_write h with rfl | h
  · exact .inl ⟨by simp, by simp⟩
  rcases Memory.mem_write h with rfl | h
  · exact .inl ⟨by simp, by simp⟩
  rcases Memory.mem_write h with rfl | h
  · exact .inl ⟨by simp, by simp⟩
  exact .inr h

/-- A word store leaves every byte outside its four alone. -/
theorem Memory.read_writeWord_ne (m : Memory) {a c : Nat} (v : Word) (h : c < a ∨ a + 4 ≤ c) :
    Memory.read (Memory.writeWord m a v) c = Memory.read m c := by
  unfold Memory.writeWord
  rw [Memory.read_write_ne _ _ (by omega), Memory.read_write_ne _ _ (by omega), Memory.read_write_ne _ _ (by omega),
    Memory.read_write_ne _ _ (by omega)]

/-- Byte `j` of the stored word holds bits `8j+7 .. 8j` (R55). -/
theorem Memory.read_writeWord (m : Memory) (a : Nat) (v : Word) {j : Nat} (h : j < 4) :
    Memory.read (Memory.writeWord m a v) (a + j) = some (v.extractLsb' (8 * j) 8) := by
  unfold Memory.writeWord
  interval_cases j
  · rw [Memory.read_write_ne _ _ (by omega), Memory.read_write_ne _ _ (by omega), Memory.read_write_ne _ _ (by omega),
      Nat.add_zero, Memory.read_write_self]
  · rw [Memory.read_write_ne _ _ (by omega), Memory.read_write_ne _ _ (by omega), Memory.read_write_self]
  · rw [Memory.read_write_ne _ _ (by omega), Memory.read_write_self]
  · rw [Memory.read_write_self]

/-- The four bytes of a word, put together again. -/
theorem word_of_bytes (v : Word) :
    v.extractLsb' 24 8 ++ v.extractLsb' 16 8 ++ v.extractLsb' 8 8 ++ v.extractLsb' 0 8 = v := by
  apply BitVec.eq_of_toNat_eq
  simp only [BitVec.toNat_append, BitVec.extractLsb'_toNat, Nat.shiftRight_eq_div_pow]
  have h := v.isLt
  rw [← Nat.shiftLeft_add_eq_or_of_lt (by omega), ← Nat.shiftLeft_add_eq_or_of_lt (by omega),
    ← Nat.shiftLeft_add_eq_or_of_lt (by omega)]
  simp only [Nat.shiftLeft_eq]
  omega

theorem Memory.readWord_writeWord_self (m : Memory) (a : Nat) (v : Word) :
    Memory.readWord (Memory.writeWord m a v) a = some v := by
  have h0 := Memory.read_writeWord m a v (j := 0) (by omega)
  have h1 := Memory.read_writeWord m a v (j := 1) (by omega)
  have h2 := Memory.read_writeWord m a v (j := 2) (by omega)
  have h3 := Memory.read_writeWord m a v (j := 3) (by omega)
  rw [Nat.add_zero] at h0
  simp only [Memory.readWord, h0, h1, h2, h3]
  exact congrArg some (word_of_bytes v)

theorem Memory.readWord_writeWord_ne (m : Memory) {a c : Nat} (v : Word) (h : c + 4 ≤ a ∨ a + 4 ≤ c) :
    Memory.readWord (Memory.writeWord m a v) c = Memory.readWord m c := by
  simp only [Memory.readWord]
  rw [Memory.read_writeWord_ne m v (by omega), Memory.read_writeWord_ne m v (by omega),
    Memory.read_writeWord_ne m v (by omega), Memory.read_writeWord_ne m v (by omega)]

/-- A word whose four bytes are written has a value. -/
theorem Memory.readWord_isSome {m : Memory} {a : Nat} (h : ∀ j < 4, (Memory.read m (a + j)).isSome = true) :
    (Memory.readWord m a).isSome = true := by
  have h0 := h 0 (by omega)
  have h1 := h 1 (by omega)
  have h2 := h 2 (by omega)
  have h3 := h 3 (by omega)
  rw [Nat.add_zero] at h0
  obtain ⟨b0, e0⟩ := Option.isSome_iff_exists.1 h0
  obtain ⟨b1, e1⟩ := Option.isSome_iff_exists.1 h1
  obtain ⟨b2, e2⟩ := Option.isSome_iff_exists.1 h2
  obtain ⟨b3, e3⟩ := Option.isSome_iff_exists.1 h3
  simp [Memory.readWord, e0, e1, e2, e3]

end Machine
end Sys2Proof
end

