-- ==== Sys2Proof/Laws/PerInstr.lean ====
section
/-!
SUPPORT. One law per instruction: the word of a well-formed command passes the mask test of its row
(spec/30_encoding.md R71, R72).
-/

namespace Sys2Proof
namespace Laws
namespace Mask

/-- Every masked bit of the instruction's word but its opcode is 0, so the word equals its row's match under the
row's mask. The engine handlers have no word. -/
def Statement (i : Instr) : Prop :=
  i.wf = true → ∀ w, encode i = some w → w &&& i.format.mask = BitVec.ofNat 32 (opcField w)

theorem rbIsEmpty (d : Nat) (r : RingSel) : Statement (.rbIsEmpty d r) := by
  intro h w hw
  cases hw
  have hd : d < 16 := by simpa [Instr.wf, devFits] using h
  exact (maskR_commandWord r (by decide) hd).trans (by rw [opcField_commandWord r (by decide) hd (by decide)])

theorem rbIsFull (d : Nat) (r : RingSel) : Statement (.rbIsFull d r) := by
  intro h w hw
  cases hw
  have hd : d < 16 := by simpa [Instr.wf, devFits] using h
  exact (maskR_commandWord r (by decide) hd).trans (by rw [opcField_commandWord r (by decide) hd (by decide)])

theorem rbCount (d : Nat) (r : RingSel) : Statement (.rbCount d r) := by
  intro h w hw
  cases hw
  have hd : d < 16 := by simpa [Instr.wf, devFits] using h
  exact (maskR_commandWord r (by decide) hd).trans (by rw [opcField_commandWord r (by decide) hd (by decide)])

theorem rbPush (d : Nat) (r : RingSel) : Statement (.rbPush d r) := by
  intro h w hw
  cases hw
  have hd : d < 16 := by simpa [Instr.wf, devFits] using h
  exact (maskR_commandWord r (by decide) hd).trans (by rw [opcField_commandWord r (by decide) hd (by decide)])

theorem rbPeek (d : Nat) (r : RingSel) : Statement (.rbPeek d r) := by
  intro h w hw
  cases hw
  have hd : d < 16 := by simpa [Instr.wf, devFits] using h
  exact (maskR_commandWord r (by decide) hd).trans (by rw [opcField_commandWord r (by decide) hd (by decide)])

theorem rbPop (d : Nat) (r : RingSel) : Statement (.rbPop d r) := by
  intro h w hw
  cases hw
  have hd : d < 16 := by simpa [Instr.wf, devFits] using h
  exact (maskR_commandWord r (by decide) hd).trans (by rw [opcField_commandWord r (by decide) hd (by decide)])

theorem btSolve : Statement .btSolve := by
  intro _ w hw
  cases hw
  exact (maskN_commandWord (by decide)).trans (by rw [opcField_commandWord .rx (by decide) (by decide) (by decide)])

theorem fltConfigure (d k : Nat) : Statement (.fltConfigure d k) := by
  intro h w hw
  cases hw
  have hd : d < 16 ∧ k < 32 := by simpa [Instr.wf, devFits, bankFits] using h
  exact (maskB_commandWord (by decide) hd.1 hd.2).trans (by rw [opcField_commandWord .rx (by decide) hd.1 hd.2])

theorem fltMask32Std (d k : Nat) : Statement (.fltMask32Std d k) := by
  intro h w hw
  cases hw
  have hd : d < 16 ∧ k < 32 := by simpa [Instr.wf, devFits, bankFits] using h
  exact (maskB_commandWord (by decide) hd.1 hd.2).trans (by rw [opcField_commandWord .rx (by decide) hd.1 hd.2])

theorem fltMask32Ext (d k : Nat) : Statement (.fltMask32Ext d k) := by
  intro h w hw
  cases hw
  have hd : d < 16 ∧ k < 32 := by simpa [Instr.wf, devFits, bankFits] using h
  exact (maskB_commandWord (by decide) hd.1 hd.2).trans (by rw [opcField_commandWord .rx (by decide) hd.1 hd.2])

theorem fltList32Std (d k : Nat) : Statement (.fltList32Std d k) := by
  intro h w hw
  cases hw
  have hd : d < 16 ∧ k < 32 := by simpa [Instr.wf, devFits, bankFits] using h
  exact (maskB_commandWord (by decide) hd.1 hd.2).trans (by rw [opcField_commandWord .rx (by decide) hd.1 hd.2])

theorem fltList32Ext (d k : Nat) : Statement (.fltList32Ext d k) := by
  intro h w hw
  cases hw
  have hd : d < 16 ∧ k < 32 := by simpa [Instr.wf, devFits, bankFits] using h
  exact (maskB_commandWord (by decide) hd.1 hd.2).trans (by rw [opcField_commandWord .rx (by decide) hd.1 hd.2])

theorem fltMask16 (d k : Nat) : Statement (.fltMask16 d k) := by
  intro h w hw
  cases hw
  have hd : d < 16 ∧ k < 32 := by simpa [Instr.wf, devFits, bankFits] using h
  exact (maskB_commandWord (by decide) hd.1 hd.2).trans (by rw [opcField_commandWord .rx (by decide) hd.1 hd.2])

theorem fltList16 (d k : Nat) : Statement (.fltList16 d k) := by
  intro h w hw
  cases hw
  have hd : d < 16 ∧ k < 32 := by simpa [Instr.wf, devFits, bankFits] using h
  exact (maskB_commandWord (by decide) hd.1 hd.2).trans (by rw [opcField_commandWord .rx (by decide) hd.1 hd.2])

theorem fltAcceptAll (d : Nat) : Statement (.fltAcceptAll d) := by
  intro h w hw
  cases hw
  have hd : d < 16 := by simpa [Instr.wf, devFits] using h
  exact (maskD_commandWord (by decide) hd).trans (by rw [opcField_commandWord .rx (by decide) hd (by decide)])

theorem fltEnable (d k : Nat) : Statement (.fltEnable d k) := by
  intro h w hw
  cases hw
  have hd : d < 16 ∧ k < 32 := by simpa [Instr.wf, devFits, bankFits] using h
  exact (maskB_commandWord (by decide) hd.1 hd.2).trans (by rw [opcField_commandWord .rx (by decide) hd.1 hd.2])

theorem fltDisable (d k : Nat) : Statement (.fltDisable d k) := by
  intro h w hw
  cases hw
  have hd : d < 16 ∧ k < 32 := by simpa [Instr.wf, devFits, bankFits] using h
  exact (maskB_commandWord (by decide) hd.1 hd.2).trans (by rw [opcField_commandWord .rx (by decide) hd.1 hd.2])

theorem fltClearAll (d : Nat) : Statement (.fltClearAll d) := by
  intro h w hw
  cases hw
  have hd : d < 16 := by simpa [Instr.wf, devFits] using h
  exact (maskD_commandWord (by decide) hd).trans (by rw [opcField_commandWord .rx (by decide) hd (by decide)])

theorem fltRead (d k : Nat) : Statement (.fltRead d k) := by
  intro h w hw
  cases hw
  have hd : d < 16 ∧ k < 32 := by simpa [Instr.wf, devFits, bankFits] using h
  exact (maskB_commandWord (by decide) hd.1 hd.2).trans (by rw [opcField_commandWord .rx (by decide) hd.1 hd.2])

theorem devOpen (d : Nat) : Statement (.devOpen d) := by
  intro h w hw
  cases hw
  have hd : d < 16 := by simpa [Instr.wf, devFits] using h
  exact (maskD_commandWord (by decide) hd).trans (by rw [opcField_commandWord .rx (by decide) hd (by decide)])

theorem devBegin (d : Nat) : Statement (.devBegin d) := by
  intro h w hw
  cases hw
  have hd : d < 16 := by simpa [Instr.wf, devFits] using h
  exact (maskD_commandWord (by decide) hd).trans (by rw [opcField_commandWord .rx (by decide) hd (by decide)])

theorem setBaudrate (d : Nat) : Statement (.setBaudrate d) := by
  intro h w hw
  cases hw
  have hd : d < 16 := by simpa [Instr.wf, devFits] using h
  exact (maskD_commandWord (by decide) hd).trans (by rw [opcField_commandWord .rx (by decide) hd (by decide)])

theorem devClose (d : Nat) : Statement (.devClose d) := by
  intro h w hw
  cases hw
  have hd : d < 16 := by simpa [Instr.wf, devFits] using h
  exact (maskD_commandWord (by decide) hd).trans (by rw [opcField_commandWord .rx (by decide) hd (by decide)])

theorem write (d : Nat) : Statement (.write d) := by
  intro h w hw
  cases hw
  have hd : d < 16 := by simpa [Instr.wf, devFits] using h
  exact (maskD_commandWord (by decide) hd).trans (by rw [opcField_commandWord .rx (by decide) hd (by decide)])

theorem availableForWrite (d : Nat) : Statement (.availableForWrite d) := by
  intro h w hw
  cases hw
  have hd : d < 16 := by simpa [Instr.wf, devFits] using h
  exact (maskD_commandWord (by decide) hd).trans (by rw [opcField_commandWord .rx (by decide) hd (by decide)])

theorem available (d : Nat) : Statement (.available d) := by
  intro h w hw
  cases hw
  have hd : d < 16 := by simpa [Instr.wf, devFits] using h
  exact (maskD_commandWord (by decide) hd).trans (by rw [opcField_commandWord .rx (by decide) hd (by decide)])

theorem peek (d : Nat) : Statement (.peek d) := by
  intro h w hw
  cases hw
  have hd : d < 16 := by simpa [Instr.wf, devFits] using h
  exact (maskD_commandWord (by decide) hd).trans (by rw [opcField_commandWord .rx (by decide) hd (by decide)])

theorem read (d : Nat) : Statement (.read d) := by
  intro h w hw
  cases hw
  have hd : d < 16 := by simpa [Instr.wf, devFits] using h
  exact (maskD_commandWord (by decide) hd).trans (by rw [opcField_commandWord .rx (by decide) hd (by decide)])

theorem getError (d : Nat) : Statement (.getError d) := by
  intro h w hw
  cases hw
  have hd : d < 16 := by simpa [Instr.wf, devFits] using h
  exact (maskD_commandWord (by decide) hd).trans (by rw [opcField_commandWord .rx (by decide) hd (by decide)])

theorem irqRx (d : Nat) : Statement (.irqRx d) := by
  intro _ w hw
  cases hw

theorem irqTx (d : Nat) : Statement (.irqTx d) := by
  intro _ w hw
  cases hw

end Mask
end Laws
end Sys2Proof
end

