-- ==== Sys2Proof/Laws/Ring.lean ====
section
/-!
SUPPORT. Rings (spec/41_ring.md): what filling and reading a slot do, and the index arithmetic of R118.
-/

namespace Sys2Proof
namespace Machine

/-! ## The slot primitives inside a ring -/

theorem Ring.offsetOk_word {r : Ring} {i j : Nat} (hi : i < r.cap) (hj : j < 4) :
    r.offsetOk (16 * i + 4 * j) = true := by
  simp only [Ring.offsetOk, Bool.and_eq_true, decide_eq_true_eq]
  omega

/-- The slot RAM with the four words of slot `h` stored. -/
def slotStore (m : Memory) (h : Nat) (w : FrameWords) : Memory :=
  Memory.writeWord (Memory.writeWord (Memory.writeWord (Memory.writeWord m (16 * h) w.fw0) (16 * h + 4) w.fw1)
    (16 * h + 8) w.fw2) (16 * h + 12) w.fw3

theorem Ring.memWrite_eq {r : Ring} {a : Nat} (v : Word) (h : r.offsetOk a = true) :
    r.memWrite a v = some { r with slot := Memory.writeWord r.slot a v } := by
  simp [Ring.memWrite, h]

/-- `ring_push` fills a slot of the ring: it never breaks the contract of `MemWrite`. -/
theorem Ring.fill_eq {r : Ring} {h : Nat} (w : FrameWords) (hh : h < r.cap) :
    r.fill h w = some { r with slot := slotStore r.slot h w } := by
  have m0 : r.memWrite (16 * h) w.fw0 = some { r with slot := Memory.writeWord r.slot (16 * h) w.fw0 } :=
    Ring.memWrite_eq _ (Ring.offsetOk_word (j := 0) hh (by omega))
  have m1 (m : Memory) : ({ r with slot := m } : Ring).memWrite (16 * h + 4) w.fw1 =
      some { r with slot := Memory.writeWord m (16 * h + 4) w.fw1 } :=
    Ring.memWrite_eq _ (Ring.offsetOk_word (r := { r with slot := m }) (j := 1) hh (by omega))
  have m2 (m : Memory) : ({ r with slot := m } : Ring).memWrite (16 * h + 8) w.fw2 =
      some { r with slot := Memory.writeWord m (16 * h + 8) w.fw2 } :=
    Ring.memWrite_eq _ (Ring.offsetOk_word (r := { r with slot := m }) (j := 2) hh (by omega))
  have m3 (m : Memory) : ({ r with slot := m } : Ring).memWrite (16 * h + 12) w.fw3 =
      some { r with slot := Memory.writeWord m (16 * h + 12) w.fw3 } :=
    Ring.memWrite_eq _ (Ring.offsetOk_word (r := { r with slot := m }) (j := 3) hh (by omega))
  simp only [Ring.fill, Option.bind_eq_bind, m0, Option.bind_some, m1, m2, m3]
  rfl

/-- A filled ring differs only in its slot RAM. -/
theorem Ring.fill_frame {r r' : Ring} {h : Nat} {w : FrameWords} (e : r.fill h w = some r') :
    r'.cap = r.cap ∧ r'.head = r.head ∧ r'.tail = r.tail := by
  simp only [Ring.fill, Ring.memWrite, Option.bind_eq_bind, Option.bind_eq_some_iff] at e
  obtain ⟨a, ha, b, hb, c, hc, hd⟩ := e
  split at ha <;> simp at ha
  split at hb <;> simp at hb
  split at hc <;> simp at hc
  split at hd <;> simp at hd
  subst ha hb hc hd
  simp

theorem slotStore_wf {m : Memory} (h : Nat) (w : FrameWords) (hm : Memory.wf m) : Memory.wf (slotStore m h w) :=
  Memory.wf_writeWord _ _ (Memory.wf_writeWord _ _ (Memory.wf_writeWord _ _ (Memory.wf_writeWord _ _ hm)))

theorem mem_slotStore {m : Memory} {h : Nat} {w : FrameWords} {c : Host.Cell} (hc : c ∈ slotStore m h w) :
    (16 * h ≤ c.1 ∧ c.1 < 16 * h + 16) ∨ c ∈ m := by
  unfold slotStore at hc
  rcases Memory.mem_writeWord hc with hc | hc
  · exact .inl (by omega)
  rcases Memory.mem_writeWord hc with hc | hc
  · exact .inl (by omega)
  rcases Memory.mem_writeWord hc with hc | hc
  · exact .inl (by omega)
  rcases Memory.mem_writeWord hc with hc | hc
  · exact .inl (by omega)
  exact .inr hc

/-- Filling slot `h` leaves every byte outside it alone. -/
theorem read_slotStore_ne (m : Memory) {h c : Nat} (w : FrameWords) (hc : c < 16 * h ∨ 16 * h + 16 ≤ c) :
    Memory.read (slotStore m h w) c = Memory.read m c := by
  unfold slotStore
  rw [Memory.read_writeWord_ne _ _ (by omega), Memory.read_writeWord_ne _ _ (by omega),
    Memory.read_writeWord_ne _ _ (by omega), Memory.read_writeWord_ne _ _ (by omega)]

/-- Filling slot `h` writes all of it. -/
theorem read_slotStore_isSome (m : Memory) (h : Nat) (w : FrameWords) {j : Nat} (hj : j < 16) :
    (Memory.read (slotStore m h w) (16 * h + j)).isSome = true := by
  unfold slotStore
  by_cases h3 : 12 ≤ j
  · have := Memory.read_writeWord (Memory.writeWord (Memory.writeWord (Memory.writeWord m (16 * h) w.fw0)
      (16 * h + 4) w.fw1) (16 * h + 8) w.fw2) (16 * h + 12) w.fw3 (j := j - 12) (by omega)
    rw [show 16 * h + 12 + (j - 12) = 16 * h + j by omega] at this
    rw [this]; rfl
  rw [Memory.read_writeWord_ne _ _ (by omega)]
  by_cases h2 : 8 ≤ j
  · have := Memory.read_writeWord (Memory.writeWord (Memory.writeWord m (16 * h) w.fw0)
      (16 * h + 4) w.fw1) (16 * h + 8) w.fw2 (j := j - 8) (by omega)
    rw [show 16 * h + 8 + (j - 8) = 16 * h + j by omega] at this
    rw [this]; rfl
  rw [Memory.read_writeWord_ne _ _ (by omega)]
  by_cases h1 : 4 ≤ j
  · have := Memory.read_writeWord (Memory.writeWord m (16 * h) w.fw0) (16 * h + 4) w.fw1 (j := j - 4) (by omega)
    rw [show 16 * h + 4 + (j - 4) = 16 * h + j by omega] at this
    rw [this]; rfl
  rw [Memory.read_writeWord_ne _ _ (by omega), Memory.read_writeWord _ _ _ (by omega)]
  rfl

theorem Ring.readSlot_eq {r : Ring} {t : Nat} {w : FrameWords} (ht : t < r.cap)
    (h0 : Memory.readWord r.slot (16 * t) = some w.fw0) (h1 : Memory.readWord r.slot (16 * t + 4) = some w.fw1)
    (h2 : Memory.readWord r.slot (16 * t + 8) = some w.fw2) (h3 : Memory.readWord r.slot (16 * t + 12) = some w.fw3) :
    r.readSlot t = .ok w := by
  have e0 : r.offsetOk (16 * t) = true := Ring.offsetOk_word (j := 0) ht (by omega)
  have e1 : r.offsetOk (16 * t + 4) = true := Ring.offsetOk_word (j := 1) ht (by omega)
  have e2 : r.offsetOk (16 * t + 8) = true := Ring.offsetOk_word (j := 2) ht (by omega)
  have e3 : r.offsetOk (16 * t + 12) = true := Ring.offsetOk_word (j := 3) ht (by omega)
  simp [Ring.readSlot, Ring.memRead, e0, e1, e2, e3, h0, h1, h2, h3]
  rfl

/-- A slot reads back as it was filled. -/
theorem Ring.readSlot_slotStore {r : Ring} {h : Nat} (w : FrameWords) (hh : h < r.cap) :
    ({ r with slot := slotStore r.slot h w } : Ring).readSlot h = .ok w := by
  have k0 : Memory.readWord (slotStore r.slot h w) (16 * h) = some w.fw0 := by
    unfold slotStore
    rw [Memory.readWord_writeWord_ne _ _ (by omega), Memory.readWord_writeWord_ne _ _ (by omega),
      Memory.readWord_writeWord_ne _ _ (by omega), Memory.readWord_writeWord_self]
  have k1 : Memory.readWord (slotStore r.slot h w) (16 * h + 4) = some w.fw1 := by
    unfold slotStore
    rw [Memory.readWord_writeWord_ne _ _ (by omega), Memory.readWord_writeWord_ne _ _ (by omega),
      Memory.readWord_writeWord_self]
  have k2 : Memory.readWord (slotStore r.slot h w) (16 * h + 8) = some w.fw2 := by
    unfold slotStore
    rw [Memory.readWord_writeWord_ne _ _ (by omega), Memory.readWord_writeWord_self]
  have k3 : Memory.readWord (slotStore r.slot h w) (16 * h + 12) = some w.fw3 := by
    unfold slotStore
    rw [Memory.readWord_writeWord_self]
  have key : ∀ r2 : Ring, r2.cap = r.cap → r2.slot = slotStore r.slot h w → r2.readSlot h = .ok w := by
    intro r2 hc hs
    rw [← hs] at k0 k1 k2 k3
    exact Ring.readSlot_eq (hc ▸ hh) k0 k1 k2 k3
  exact key _ rfl rfl

/-- Reading depends only on the sixteen bytes of the slot. -/
theorem Ring.readSlot_congr {r r' : Ring} {t : Nat} (hc : r'.cap = r.cap)
    (h : ∀ j < 16, Memory.read r'.slot (16 * t + j) = Memory.read r.slot (16 * t + j)) :
    r'.readSlot t = r.readSlot t := by
  have e0 : ∀ k, k + 4 ≤ 16 → Memory.readWord r'.slot (16 * t + k) = Memory.readWord r.slot (16 * t + k) := by
    intro k hk
    simp only [Memory.readWord]
    have a0 := h k (by omega)
    have a1 := h (k + 1) (by omega)
    have a2 := h (k + 2) (by omega)
    have a3 := h (k + 3) (by omega)
    simp only [← Nat.add_assoc] at a1 a2 a3
    rw [a0, a1, a2, a3]
  have w0 := e0 0 (by omega)
  have w1 := e0 4 (by omega)
  have w2 := e0 8 (by omega)
  have w3 := e0 12 (by omega)
  rw [Nat.add_zero] at w0
  have m : ∀ a, Memory.readWord r'.slot a = Memory.readWord r.slot a → r'.memRead a = r.memRead a := by
    intro a ha
    rw [Ring.memRead, Ring.memRead, Ring.offsetOk, Ring.offsetOk, hc, ha]
  simp only [Ring.readSlot, m _ w0, m _ w1, m _ w2, m _ w3]

/-- A written slot of the ring reads as some frame: no `F_UNWRITTEN` and no `F_INTERNAL`. -/
theorem Ring.readSlot_ok {r : Ring} {t : Nat} (ht : t < r.cap) (hw : r.SlotWritten t) : ∃ w, r.readSlot t = .ok w := by
  have s : ∀ k, k + 4 ≤ 16 → (Memory.readWord r.slot (16 * t + k)).isSome = true := by
    intro k hk
    refine Memory.readWord_isSome fun j hj => ?_
    rw [Nat.add_assoc]
    exact hw (k + j) (by omega)
  obtain ⟨w0, e0⟩ := Option.isSome_iff_exists.1 (s 0 (by omega))
  obtain ⟨w1, e1⟩ := Option.isSome_iff_exists.1 (s 4 (by omega))
  obtain ⟨w2, e2⟩ := Option.isSome_iff_exists.1 (s 8 (by omega))
  obtain ⟨w3, e3⟩ := Option.isSome_iff_exists.1 (s 12 (by omega))
  rw [Nat.add_zero] at e0
  exact ⟨⟨w0, w1, w2, w3⟩, Ring.readSlot_eq (w := ⟨w0, w1, w2, w3⟩) ht e0 e1 e2 e3⟩

/-! ## Index arithmetic (R118) -/

theorem Ring.count_of_le {r : Ring} (h : r.tail ≤ r.head) (hh : r.head < r.cap) : r.count = r.head - r.tail := by
  have : r.cap ≠ 0 := by omega
  simp only [Ring.count, this, if_false]
  rw [show r.head + r.cap - r.tail = r.head - r.tail + r.cap by omega, Nat.add_mod_right, Nat.mod_eq_of_lt (by omega)]

theorem Ring.count_of_lt {r : Ring} (h : r.head < r.tail) (ht : r.tail < r.cap) :
    r.count = r.head + r.cap - r.tail := by
  have : r.cap ≠ 0 := by omega
  simp only [Ring.count, this, if_false]
  rw [Nat.mod_eq_of_lt (by omega)]

/-- The count never reaches the capacity (R26). -/
theorem Ring.count_lt {r : Ring} (h : 0 < r.cap) : r.count < r.cap := by
  have : r.cap ≠ 0 := by omega
  simp only [Ring.count, this, if_false]
  exact Nat.mod_lt _ h

theorem Ring.isEmpty_iff_count {r : Ring} (hh : r.head < r.cap) (ht : r.tail < r.cap) :
    r.isEmpty = true ↔ r.count = 0 := by
  have : r.cap ≠ 0 := by omega
  simp only [Ring.isEmpty, this, if_false, decide_eq_true_eq]
  rcases Nat.lt_or_ge r.head r.tail with h | h
  · rw [Ring.count_of_lt h ht]; omega
  · rw [Ring.count_of_le h hh]; omega

theorem succ_mod_of {x n : Nat} (h : x < n) : (x + 1) % n = if x + 1 = n then 0 else x + 1 := by
  split
  · rename_i e; rw [e, Nat.mod_self]
  · exact Nat.mod_eq_of_lt (by omega)

theorem Ring.isFull_iff_count {r : Ring} (hh : r.head < r.cap) (ht : r.tail < r.cap) :
    r.isFull = true ↔ r.count = r.cap - 1 := by
  have : r.cap ≠ 0 := by omega
  simp only [Ring.isFull, this, if_false, decide_eq_true_eq, succ_mod_of hh]
  rcases Nat.lt_or_ge r.head r.tail with h | h
  · rw [Ring.count_of_lt h ht]; split <;> omega
  · rw [Ring.count_of_le h hh]; split <;> omega

/-- Publishing on a ring that is not full adds one frame. -/
theorem Ring.count_publish {r : Ring} (hh : r.head < r.cap) (ht : r.tail < r.cap) (hf : r.isFull = false) :
    (r.publish r.head).count = r.count + 1 := by
  have hn : r.count ≠ r.cap - 1 := fun h => by rw [(Ring.isFull_iff_count hh ht).2 h] at hf; exact absurd hf (by decide)
  have hlt := Ring.count_lt (r := r) (by omega)
  have hp : (r.publish r.head).head = if r.head + 1 = r.cap then 0 else r.head + 1 := succ_mod_of hh
  have hpc : (r.publish r.head).cap = r.cap := rfl
  have hpt : (r.publish r.head).tail = r.tail := rfl
  rcases Nat.lt_or_ge r.head r.tail with h | h
  · rw [Ring.count_of_lt h ht] at hn ⊢
    rw [if_neg (by omega)] at hp
    have h2 : (r.publish r.head).head < (r.publish r.head).tail := by omega
    rw [Ring.count_of_lt h2 (by omega)]; omega
  · rw [Ring.count_of_le h hh] at hn ⊢
    split at hp
    · rename_i e
      have h2 : (r.publish r.head).head < (r.publish r.head).tail := by omega
      rw [Ring.count_of_lt h2 (by omega)]; omega
    · have h2 : (r.publish r.head).tail ≤ (r.publish r.head).head := by omega
      rw [Ring.count_of_le h2 (by omega)]; omega

/-- Advancing on a ring that is not empty removes one frame. -/
theorem Ring.count_advance {r : Ring} (hh : r.head < r.cap) (ht : r.tail < r.cap) (he : r.isEmpty = false) :
    (r.advance r.tail).count + 1 = r.count := by
  have hn : r.count ≠ 0 := fun h => by rw [(Ring.isEmpty_iff_count hh ht).2 h] at he; exact absurd he (by decide)
  have hp : (r.advance r.tail).tail = if r.tail + 1 = r.cap then 0 else r.tail + 1 := succ_mod_of ht
  have hpc : (r.advance r.tail).cap = r.cap := rfl
  have hph : (r.advance r.tail).head = r.head := rfl
  rcases Nat.lt_or_ge r.head r.tail with h | h
  · rw [Ring.count_of_lt h ht] at hn ⊢
    split at hp
    · rename_i e
      have h2 : (r.advance r.tail).tail ≤ (r.advance r.tail).head := by omega
      rw [Ring.count_of_le h2 (by omega)]; omega
    · have h2 : (r.advance r.tail).head < (r.advance r.tail).tail ∨ (r.advance r.tail).tail ≤ (r.advance r.tail).head := by
        omega
      rcases h2 with h2 | h2
      · rw [Ring.count_of_lt h2 (by omega)]; omega
      · omega
  · rw [Ring.count_of_le h hh] at hn ⊢
    rw [if_neg (by omega)] at hp
    have h2 : (r.advance r.tail).tail ≤ (r.advance r.tail).head := by omega
    rw [Ring.count_of_le h2 (by omega)]; omega

/-! ## Reset -/

/-- Every memory of the reset state is in canonical form. -/
theorem resetOf_memory_wf (c : Config) (ref : RingRef) : Memory.wf ((State.resetOf c).ring ref).slot := by
  have h : ((State.resetOf c).device ref.dev) = DevState.reset := by
    simp only [State.device, State.resetOf, List.getD_eq_getElem?_getD, List.getElem?_map]
    cases c.desc[ref.dev]? <;> rfl
  simp only [State.ring, h]
  cases ref.sel <;> exact List.Pairwise.nil

end Machine
end Sys2Proof
end

