-- ==== Sys2Proof/Laws/Steps.lean ====
section
/-!
SUPPORT. One lemma per shared operation of the meanings, saying everything the operation can do: the checks of a
command (spec/60_exceptions.md R262), the ring primitives' steps, the external primitives (spec/45_irq.md R250), the
choice of an event and the host port (spec/20_memory.md R52, R60).
-/

namespace Sys2Proof
namespace Machine

/-! ## Checks -/

theorem single_of_start {s : State} (t : State) (h : s.pos = .start) : single s t = .next t := by
  simp [single, h]

theorem single_eq_next {s t u : State} : single s t = .next u ↔ s.pos = .start ∧ t = u := by
  unfold single
  split <;> simp_all

theorem onDevice_of {s : State} {d : Nat} (t : State) (h : s.cfg.hasDevice d = true) : onDevice d s t = t := by
  simp [onDevice, h]

theorem onDevice_absent {s : State} {d : Nat} (t : State) (h : s.cfg.hasDevice d = false) :
    onDevice d s t = s.finish .errArg [] := by
  simp [onDevice, h]

theorem whenRunning_of {s : State} {d : Nat} (t : State) (h : s.cfg.hasDevice d = true)
    (hr : (s.device d).st = .running) : whenRunning d s t = t := by
  simp [whenRunning, onDevice, h, hr]

theorem whenRunning_not {s : State} {d : Nat} (t : State) (h : s.cfg.hasDevice d = true)
    (hr : (s.device d).st ≠ .running) : whenRunning d s t = s.finish .errState [] := by
  simp [whenRunning, onDevice, h, hr]

/-- The lifecycle check passes, or the command ends with `ERR_ARG` or `ERR_STATE` and nothing else changes. -/
theorem whenRunning_cases (d : Nat) (s t : State) :
    (s.cfg.hasDevice d = true ∧ (s.device d).st = .running ∧ whenRunning d s t = t) ∨
    (s.cfg.hasDevice d = false ∧ whenRunning d s t = s.finish .errArg []) ∨
    (s.cfg.hasDevice d = true ∧ (s.device d).st ≠ .running ∧ whenRunning d s t = s.finish .errState []) := by
  cases h : s.cfg.hasDevice d
  · exact .inr (.inl ⟨rfl, onDevice_absent _ h⟩)
  · by_cases hr : (s.device d).st = .running
    · exact .inl ⟨rfl, hr, whenRunning_of t h hr⟩
    · exact .inr (.inr ⟨rfl, hr, whenRunning_not t h hr⟩)

theorem pre_of {s : State} {d k : Nat} (t : State) (h : s.cfg.hasDevice d = true)
    (hr : (s.device d).st = .running) (hk : s.ownsBank d k = true) : pre d k s t = t := by
  simp [pre, whenRunning, onDevice, h, hr, hk]

/-- The checks of R151 pass, or the command ends with `ERR_ARG`, `ERR_STATE` or `ERR_BANK` and nothing else changes. -/
theorem pre_cases (d k : Nat) (s t : State) :
    (s.cfg.hasDevice d = true ∧ (s.device d).st = .running ∧ s.ownsBank d k = true ∧ pre d k s t = t) ∨
    (∃ c, (c = .errArg ∨ c = .errState ∨ c = .errBank) ∧ pre d k s t = s.finish c []) := by
  unfold pre
  rcases whenRunning_cases d s (if s.ownsBank d k then t else s.finish .errBank []) with ⟨h, hr, e⟩ | ⟨_, e⟩ | ⟨_, _, e⟩
  · rw [e]
    cases hk : s.ownsBank d k
    · exact .inr ⟨.errBank, .inr (.inr rfl), rfl⟩
    · exact .inl ⟨h, hr, rfl, rfl⟩
  · exact .inr ⟨.errArg, .inl rfl, e⟩
  · exact .inr ⟨.errState, .inr (.inl rfl), e⟩

/-! ## Ring primitives -/

theorem pushCheckStep_eq (a : Agent) (ref : RingRef) (f : Frame) (p : Pos) (s : State) :
    pushCheckStep a ref f p s = s.goto a (if (s.ring ref).isFull then p else .pushFill (s.ring ref).head f) := by
  unfold pushCheckStep
  split <;> rfl

/-- Filling a slot of the ring always succeeds. -/
theorem pushFillStep_of {s : State} {ref : RingRef} {h : Nat} (a : Agent) (f : Frame) (hh : h < (s.ring ref).cap) :
    pushFillStep a ref h f s =
      (s.setRing ref { s.ring ref with slot := slotStore (s.ring ref).slot h f.words }).goto a (.pushPublish h) := by
  simp only [pushFillStep, Ring.fill_eq _ hh]

/-- Filling fills and goes on, or is `F_INTERNAL`. -/
theorem pushFillStep_cases (a : Agent) (ref : RingRef) (h : Nat) (f : Frame) (s : State) :
    (∃ r, (s.ring ref).fill h f.words = some r ∧
      pushFillStep a ref h f s = (s.setRing ref r).goto a (.pushPublish h)) ∨
    pushFillStep a ref h f s = s.raise a (.internal .memWrite) := by
  unfold pushFillStep
  split
  · rename_i r e
    exact .inl ⟨r, e, rfl⟩
  · exact .inr rfl

theorem peekCheckStep_eq (a : Agent) (ref : RingRef) (p : Pos) (s : State) :
    peekCheckStep a ref p s = s.goto a (if (s.ring ref).isEmpty then p else .peekRead (s.ring ref).tail) := by
  unfold peekCheckStep
  split <;> rfl

/-- Reading a written slot of the ring goes on with the frame it holds. -/
theorem peekReadStep_of {s : State} {ref : RingRef} {t : Nat} (a : Agent) (after : Frame → Pos)
    (ht : t < (s.ring ref).cap) (hw : (s.ring ref).SlotWritten t) :
    ∃ w, (s.ring ref).readSlot t = .ok w ∧ peekReadStep a ref t after s = s.goto a (after (Frame.ofWords w)) := by
  obtain ⟨w, e⟩ := Ring.readSlot_ok ht hw
  exact ⟨w, e, by simp only [peekReadStep, e]⟩

/-- Reading goes on with a frame, or is a model fault. -/
theorem peekReadStep_cases (a : Agent) (ref : RingRef) (t : Nat) (after : Frame → Pos) (s : State) :
    (∃ w, (s.ring ref).readSlot t = .ok w ∧ peekReadStep a ref t after s = s.goto a (after (Frame.ofWords w))) ∨
    ∃ e, peekReadStep a ref t after s = s.raise a e := by
  unfold peekReadStep
  split
  · rename_i w e
    exact .inl ⟨w, e, rfl⟩
  · exact .inr ⟨_, rfl⟩
  · exact .inr ⟨_, rfl⟩

theorem popCheckStep_eq (a : Agent) (ref : RingRef) (x : Option Frame) (p : Pos) (s : State) :
    popCheckStep a ref x p s = s.goto a (if (s.ring ref).isEmpty then p else .popAdvance (s.ring ref).tail x) := by
  unfold popCheckStep
  split <;> rfl

/-! ## External primitives -/

/-- A transmit attempt loads the frame, takes a draw and loads it, takes a draw and fails, or fails at once. -/
theorem hwTransmit_cases (s : State) (b : Nat) (f : Frame) :
    (s.canTransmit b = true ∧ s.cfg.hwTxMayFail = false ∧ s.hwTransmit b f = (true, s.loadMailbox b f)) ∨
    (s.canTransmit b = true ∧ s.cfg.hwTxMayFail = true ∧ drawnBool s.nextDraw = true ∧
      s.hwTransmit b f = (true, s.afterDraw.loadMailbox b f)) ∨
    (s.canTransmit b = true ∧ s.cfg.hwTxMayFail = true ∧ drawnBool s.nextDraw = false ∧
      s.hwTransmit b f = (false, s.afterDraw)) ∨
    (s.canTransmit b = false ∧ s.hwTransmit b f = (false, s)) := by
  unfold State.hwTransmit
  cases s.canTransmit b <;> cases s.cfg.hwTxMayFail <;> cases drawnBool s.nextDraw <;> simp

theorem hwInit_of_true {s : State} (b base remap : Nat) (t : Word) (h : drawnBool s.nextDraw = true) :
    s.hwInit b base remap t =
      (true, s.afterDraw.setBlock b { s.afterDraw.block b with hwMode := .normal, mbox := [], rxfifo := [] }) := by
  simp [State.hwInit, h]

theorem hwInit_of_false {s : State} (b base remap : Nat) (t : Word) (h : drawnBool s.nextDraw = false) :
    s.hwInit b base remap t =
      (false, s.afterDraw.setBlock b { s.afterDraw.block b with hwMode := .reset }) := by
  simp [State.hwInit, h]

theorem hwSetMode_of_true {s : State} (b : Nat) (m : HwMode) (h : drawnBool s.nextDraw = true) :
    s.hwSetMode b m = (true, s.afterDraw.setBlock b { s.afterDraw.block b with hwMode := m }) := by
  simp [State.hwSetMode, h]

theorem hwSetMode_of_false {s : State} (b : Nat) (m : HwMode) (h : drawnBool s.nextDraw = false) :
    s.hwSetMode b m =
      (false, s.afterDraw.afterDraw.setBlock b
        { s.afterDraw.afterDraw.block b with hwMode := drawnMode s.afterDraw.nextDraw }) := by
  simp [State.hwSetMode, h]

/-- A write to a pin sets the level of that pin and of no other. -/
theorem pinLevel_envGpioWrite (s : State) (pin p : Nat) (v : Bool) :
    (s.envGpioWrite pin v).pinLevel p = if p = pin then Trx.ofLevel v else s.pinLevel p := by
  show (match Table.read (Table.write s.pins pin v) p with
    | some v => Trx.ofLevel v
    | none => .z) = _
  by_cases h : p = pin
  · rw [if_pos h, h, Table.read_write_self]
  · rw [if_neg h, Table.read_write_ne _ _ h]
    rfl

/-- What driving the pin of a device leaves on every pin and in `TRX` of every device (R31, R204). -/
theorem driveTrx_pinDriven (s : State) (d : Nat) (v : Bool) : s.PinDriven (s.driveTrx d v) d v := by
  have hp : ∀ p, (s.driveTrx d v).pinLevel p =
      if (s.desc d).trxPin = some p then (if v = true then .high else .low) else s.pinLevel p := by
    intro p
    unfold State.driveTrx
    cases h : (s.desc d).trxPin with
    | none => simp
    | some q => simp [pinLevel_envGpioWrite, Trx.ofLevel, eq_comm]
  refine ⟨hp, fun e => ?_⟩
  rw [State.trx, State.trx, desc_eq_of_cfg (driveTrx_cfg s d v)]
  cases he : (s.desc e).trxPin with
  | none => cases hd : (s.desc d).trxPin <;> simp
  | some q =>
    show (s.driveTrx d v).pinLevel q = _
    rw [hp q]
    cases hd : (s.desc d).trxPin <;> simp [eq_comm]

/-- Driving a pin keeps the table of pin levels canonical and to the pins of devices. -/
theorem driveTrx_pinsOk {s : State} {d : Nat} (v : Bool) (hd : d < s.cfg.numDev) (h : s.PinsOk) :
    (s.driveTrx d v).PinsOk := by
  unfold State.driveTrx
  cases hp : (s.desc d).trxPin with
  | none => exact h
  | some q =>
    refine ⟨Table.wf_write q v h.1, fun x hx => ?_⟩
    rcases Table.mem_write hx with rfl | hx
    · exact ⟨d, hd, hp⟩
    · exact h.2 x hx

/-- `BEGIN` leaves the state of every other device as it was. -/
theorem device_startDevice_ne (s : State) {d e : Nat} (timing baud : Word) (h : d ≠ e) :
    (s.startDevice d timing baud).device e = s.device e := by
  unfold State.startDevice
  rw [device_setDevice_ne _ _ h, device_eq_of_dev (driveTrx_dev _ _ _)]
  unfold State.setTxIe State.setRxIe
  rw [device_setDevice_ne _ _ h, device_setDevice_ne _ _ h, device_eq_of_dev (clearOwned_dev _ _),
    device_setDevice_ne _ _ h]

/-- `CLOSE` leaves the state of every other device as it was (R281). -/
theorem device_releaseDevice_ne (s : State) {d e : Nat} (h : d ≠ e) : (s.releaseDevice d).device e = s.device e := by
  unfold State.releaseDevice
  rw [device_setDevice_ne _ _ h, device_eq_of_dev (setBlock_dev _ _ _), device_eq_of_dev (driveTrx_dev _ _ _),
    device_setDevice_ne _ _ h, device_eq_of_dev (hwDeinit_dev _ _), device_eq_of_dev (clearOwned_dev _ _),
    device_setDevice_ne _ _ h]
  unfold State.setTxIe State.setRxIe
  rw [device_setDevice_ne _ _ h, device_setDevice_ne _ _ h]

/-! ## Events -/

/-- A completion whose guard does not hold does nothing (R60(a), R240). -/
theorem busComplete_of_not_mayStep {s : State} {b : Nat} (hb : b < s.cfg.numBlocks) (h : s.busMayStep b = false) :
    busComplete b s = s := by
  have hn : ¬ (s.block b).hwMode = .normal := by simpa [State.busMayStep, hb] using h
  exact if_neg hn

/-- An arrival whose guard does not hold does nothing (R60(a), R241). -/
theorem busArrive_of_not_mayStep {s : State} {b : Nat} (hb : b < s.cfg.numBlocks) (h : s.busMayStep b = false) :
    busArrive b s = s := by
  have hn : ¬ (s.block b).hwMode = .normal := by simpa [State.busMayStep, hb] using h
  exact if_neg hn

/-- Where `APP` is the only agent enabled, every event that is not its own leaves the state as it is (R251(d)): so `APP`
stays the only agent enabled until it accesses the port or steps. -/
theorem takeEvent_of_appAlone {s : State} (h : s.AppAlone) {e : Event} (ha : e ≠ .app) (hp : e ≠ .port) :
    takeEvent e s = .next s := by
  cases e with
  | app => exact absurd rfl ha
  | port => exact absurd rfl hp
  | enter g => exact if_neg (by simp [(h.2.1 g).1])
  | resume g => exact if_neg (by simp [(h.2.1 g).2])
  | complete b =>
    by_cases hb : b < s.cfg.numBlocks
    · simp [takeEvent, runEvent, busComplete_of_not_mayStep hb (h.2.2 b)]
    · simp [takeEvent, State.enabled, hb]
  | arrive b =>
    by_cases hb : b < s.cfg.numBlocks
    · simp [takeEvent, runEvent, busArrive_of_not_mayStep hb (h.2.2 b)]
    · simp [takeEvent, State.enabled, hb]

/-- The entry step leaves its handler the one that may step next, so R251(b) holds of every handler in progress. -/
theorem resumeEnabled_enterHandler {s : State} {h : Handler} (p : Pos) (he : s.entryEnabled h = true) :
    (s.enterHandler h p).resumeEnabled h = true := by
  simp only [State.entryEnabled, Bool.and_eq_true, List.all_eq_true, decide_eq_true_eq] at he
  have hall : ((s.enterHandler h p).active.all fun r =>
      decide ((s.enterHandler h p).prio h ≤ (s.enterHandler h p).prio r.handler)) = true := by
    rw [List.all_eq_true]
    intro r hr
    rcases List.mem_append.1 hr with hr | hr
    · exact decide_eq_true (Nat.le_of_lt (he.1.2 r hr))
    · rw [List.mem_singleton.1 hr]
      exact decide_eq_true (Nat.le_refl _)
  have hact : (s.enterHandler h p).isActive h = true := by simp [State.isActive, State.enterHandler]
  have hst : (s.enterHandler h p).stopped (.engine h) = false := by
    show s.stopped (.engine h) = false
    simpa using he.1.1.2
  rw [State.resumeEnabled, hact, hst, hall]
  rfl

/-- A step is a refusal, or the chosen event's effect, or a schedule's entry that is not enabled and passes. -/
theorem step_cases (s : State) :
    (s.cfg.admitted = false ∧ step s = .refused .badConfiguration) ∨
    (s.cfg.admitted = true ∧ s.afterChoice.enabled s.choose = true ∧ step s = runEvent s.choose s.afterChoice) ∨
    (s.cfg.admitted = true ∧ s.afterChoice.enabled s.choose = false ∧ step s = .next s.afterChoice) := by
  unfold step takeEvent
  cases s.cfg.admitted <;> cases s.afterChoice.enabled s.choose <;> simp

@[simp] theorem choose_cons {s : State} {e : Event} {l : List Event} (h : s.sched = e :: l) : s.choose = e := by
  simp [State.choose, h]

theorem afterChoice_cons {s : State} {e : Event} {l : List Event} (h : s.sched = e :: l) :
    s.afterChoice = { s with sched := l } := by
  simp [State.afterChoice, h]

/-- Taking a choice changes nothing but the schedule and the count of draws. -/
theorem afterChoice_frame (s : State) :
    s.afterChoice.cfg = s.cfg ∧ s.afterChoice.cmd = s.cmd ∧ s.afterChoice.code = s.code ∧ s.afterChoice.arg = s.arg ∧
    s.afterChoice.res = s.res ∧ s.afterChoice.dev = s.dev ∧ s.afterChoice.blk = s.blk ∧ s.afterChoice.flt = s.flt ∧
    s.afterChoice.pins = s.pins ∧ s.afterChoice.cur = s.cur ∧ s.afterChoice.active = s.active ∧ s.afterChoice.faults = s.faults ∧
    s.afterChoice.host = s.host ∧ s.afterChoice.readData = s.readData ∧ s.afterChoice.tape = s.tape := by
  unfold State.afterChoice
  split <;> simp

/-- A host store is a port fault, or it writes `CMD` and accepts a command, or it writes one `ARG` register. -/
theorem portWrite_cases (s : State) (off : Nat) (v : Word) :
    s.portWrite off v = none ∨
    (s.busy = false ∧ off = 0 ∧ s.portWrite off v = some { s with cmd := v, cur := some .start }) ∨
    (s.busy = false ∧ 0x10 ≤ off ∧ off < 0x30 ∧
      s.portWrite off v = some { s with arg := s.arg.set v ((off - 0x10) / 4) }) := by
  unfold State.portWrite
  cases s.busy
  · by_cases h0 : off = 0
    · simp [h0]
    · by_cases h1 : 0x10 ≤ off ∧ off < 0x30 <;> simp [h0, h1]
  · simp

/-- A port access outside the window is a fault. Inside it, it is recorded as a port fault of `APP`, or it is a store
that `portWrite` takes, or a load. -/
theorem portAccess_cases (a : PortAccess) (s : State) :
    portAccess a s = .fault .outsideWindow ∨
    portAccess a s = .next (s.raise .app (.port a.addr a.width)) ∨
    (∃ t, a.write = true ∧ s.portWrite (a.addr - s.cfg.canqBase) a.value = some t ∧ portAccess a s = .next t) ∨
    (∃ v, a.write = false ∧ s.portRead (a.addr - s.cfg.canqBase) = some v ∧
      portAccess a s = .next { s with readData := v }) := by
  unfold portAccess
  split
  · exact .inl rfl
  · dsimp only
    split
    · exact .inr (.inl rfl)
    · cases hw : a.write <;> simp only [Bool.false_eq_true, if_false, if_true]
      · cases hr : s.portRead (a.addr - s.cfg.canqBase)
        · exact .inr (.inl rfl)
        · exact .inr (.inr (.inr ⟨_, trivial, rfl, rfl⟩))
      · cases hr : s.portWrite (a.addr - s.cfg.canqBase) a.value
        · exact .inr (.inl rfl)
        · exact .inr (.inr (.inl ⟨_, trivial, rfl, rfl⟩))

end Machine
end Sys2Proof
end

