-- ==== Sys2Proof/Tests/Slice0.lean ====
section
/-!
SUPPORT. Small tests with expected values from spec/95_test_vectors.md (the vector's name stands at each test), and for
every statement of Obligations.lean the concrete states and operands that meet its hypotheses.
-/

namespace Sys2Proof
namespace Tests

set_option Elab.async false

open Sys2Proof.Machine

/-! ## Helpers -/

/-- A state of the reference configuration: device 0, block 0, a position of `APP` and the operands are given, the rest is
as after reset. -/
def st (x : DevState) (y : BlockState) (p : Option Pos) (args : List Word) : State :=
  { State.reset with
    dev := [x, DevState.reset, DevState.reset], blk := [y, BlockState.reset], cur := p, arg := Words8.ofList args }

/-- Device 0 after `OPEN d0, 4, 4` and `BEGIN d0, 500000` (95_test_vectors.md 2.4). -/
def devRun : DevState :=
  { DevState.reset with
    st := .running, rxIe := true, timing := 0x001C0008, baud := 500000, baudValid := true, rxr := Ring.alloc 4
    txr := Ring.alloc 4 }

/-- Its block. -/
def blkRun : BlockState := { claim := true, owner := 0, mbox := [], rxfifo := [], hwMode := .normal }

/-- Device 0 RUNNING, a command accepted, the operands given. -/
def run (args : List Word) : State := st devRun blkRun (some .start) args

/-- The same at another position. -/
def runAt (p : Pos) : State := st devRun blkRun (some p) []

/-- The ring of capacity `cap` after pushes of the given words, from empty; `i` is the next slot. -/
def pushAll (r : Ring) : List FrameWords → Ring
  | [] => r
  | w :: rest => pushAll (((r.fill r.head w).getD r).publish r.head) rest

/-- Frame words A, B, C, D of program P2, and `REMOTE` = `{0x7FF, STD, REMOTE, 0}`. -/
def wA : FrameWords := ⟨0x200, 1, 0xA0, 0⟩
def wB : FrameWords := ⟨0x201, 1, 0xB0, 0⟩
def wC : FrameWords := ⟨0x202, 1, 0xC0, 0⟩
def wD : FrameWords := ⟨0x203, 1, 0xD0, 0⟩
def wRemote : FrameWords := ⟨0x400007FF, 0, 0, 0⟩

/-- Rings of capacity 4 that hold one, two and three frames. -/
def ring1 : Ring := pushAll (Ring.alloc 4) [wRemote]
def ring2 : Ring := pushAll (Ring.alloc 4) [wA, wB]
def ring3 : Ring := pushAll (Ring.alloc 4) [wA, wB, wC]

/-- Device 0 with these rings. -/
def devRings (rx tx : Ring) : DevState := { devRun with rxr := rx, txr := tx }

/-- The next state of an outcome. -/
def nextOf : Result → Option State
  | .next t => some t
  | _ => none

/-- Status and results of a command that has ended. -/
def ended (r : Result) : Option (StatusCode × List Word) :=
  match r with
  | .next t =>
    if t.cur = none then some (t.code, [t.res.r0, t.res.r1, t.res.r2, t.res.r3, t.res.r4, t.res.r5, t.res.r6, t.res.r7])
    else none
  | _ => none

/-- Eight results, the listed ones first. -/
def res (l : List Word) : List Word := (l ++ List.replicate 8 0).take 8

/-! ## Well-formedness refuses ill-formed terms (30_encoding.md R70: four bits of `DEV`, five of `BANK`) -/

theorem test_wf_refuses_device :
    ([.rbIsEmpty 16 .rx, .rbIsFull 16 .rx, .rbCount 16 .rx, .rbPush 16 .tx, .rbPeek 16 .rx, .rbPop 16 .rx,
      .fltConfigure 16 0, .fltMask32Std 16 0, .fltMask32Ext 16 0, .fltList32Std 16 0, .fltList32Ext 16 0,
      .fltMask16 16 0, .fltList16 16 0, .fltAcceptAll 16, .fltEnable 16 0, .fltDisable 16 0, .fltClearAll 16,
      .fltRead 16 0, .devOpen 16, .devBegin 16, .setBaudrate 16, .devClose 16, .write 16, .availableForWrite 16,
      .available 16, .peek 16, .read 16, .getError 16, .irqRx 16, .irqTx 16] : List Instr).all (fun i => !i.wf) = true := by
  decide

theorem test_wf_refuses_bank :
    ([.fltConfigure 0 32, .fltMask32Std 0 32, .fltMask32Ext 0 32, .fltList32Std 0 32, .fltList32Ext 0 32,
      .fltMask16 0 32, .fltList16 0 32, .fltEnable 0 32, .fltDisable 0 32, .fltRead 0 32] : List Instr).all
        (fun i => !i.wf) = true := by
  decide

theorem test_wf_accepts_largest : Instr.wf (.fltRead 15 31) = true ∧ Instr.wf .btSolve = true := by decide

/-! ## Decoding: words written out bit by bit (95_test_vectors.md 2.1, 2.2) -/

theorem test_decode_ring :
    decode 0x00000001 = .ok (.rbIsEmpty 0 .rx) ∧ decode 0x00001001 = .ok (.rbIsEmpty 0 .tx) ∧
    decode 0x00000201 = .ok (.rbIsEmpty 2 .rx) ∧ decode 0x00001002 = .ok (.rbIsFull 0 .tx) ∧
    decode 0x00001003 = .ok (.rbCount 0 .tx) ∧ decode 0x00001004 = .ok (.rbPush 0 .tx) ∧
    decode 0x00000005 = .ok (.rbPeek 0 .rx) ∧ decode 0x00000006 = .ok (.rbPop 0 .rx) := by decide +kernel

theorem test_decode_solver : decode 0x00000010 = .ok .btSolve := by decide +kernel

theorem test_decode_filter :
    decode 0x00030020 = .ok (.fltConfigure 0 3) ∧ decode 0x000E0221 = .ok (.fltMask32Std 2 14) ∧
    decode 0x00010022 = .ok (.fltMask32Ext 0 1) ∧ decode 0x00020023 = .ok (.fltList32Std 0 2) ∧
    decode 0x00040024 = .ok (.fltList32Ext 0 4) ∧ decode 0x00050025 = .ok (.fltMask16 0 5) ∧
    decode 0x00060026 = .ok (.fltList16 0 6) ∧ decode 0x00000227 = .ok (.fltAcceptAll 2) ∧
    decode 0x00020028 = .ok (.fltEnable 0 2) ∧ decode 0x00010029 = .ok (.fltDisable 0 1) ∧
    decode 0x0000022A = .ok (.fltClearAll 2) ∧ decode 0x0005002B = .ok (.fltRead 0 5) ∧
    decode 0x001F0021 = .ok (.fltMask32Std 0 31) := by decide +kernel

theorem test_decode_controller :
    decode 0x00000130 = .ok (.devOpen 1) ∧ decode 0x00000231 = .ok (.devBegin 2) ∧
    decode 0x00000232 = .ok (.setBaudrate 2) ∧ decode 0x00000233 = .ok (.devClose 2) ∧
    decode 0x00000234 = .ok (.write 2) ∧ decode 0x00000035 = .ok (.availableForWrite 0) ∧
    decode 0x00000036 = .ok (.available 0) ∧ decode 0x00000037 = .ok (.peek 0) ∧ decode 0x00000038 = .ok (.read 0) ∧
    decode 0x00000239 = .ok (.getError 2) ∧ decode 0x00000F31 = .ok (.devBegin 15) := by decide +kernel

/-- V-DEC-1 to V-DEC-4, then V-DEC-6 to V-DEC-13 and V-DEC-16. -/
theorem test_decode_rejects :
    ([0x00000000, 0x00000007, 0x0000002C, 0x000000FF] : List Word).all
      (fun w => decide (decode w = .error .noRow)) = true ∧
    ([0x00000110, 0x00010010, 0x00001034, 0x00010034, 0x00011001, 0x00002001, 0x00200021, 0x80000030, 0x00010330] :
      List Word).all (fun w => decide (decode w = .error .unusedField)) = true := by decide +kernel

theorem test_encode_engines_have_no_word : encode (.irqRx 0) = none ∧ encode (.irqTx 0) = none := by decide

theorem test_decodeTableWord : decodeTableWord 32 0x00030021 = some (.fltMask32Std 0 3) ∧ decodeTableWord 32 0 = none := by
  decide +kernel

/-! ## One step of each command -/

/-- V-RB-1, V-RB-2, V-RB-8, V-RB-19. -/
theorem test_ring_queries :
    ended (exec (.rbIsEmpty 0 .rx) (runAt .query)) = some (.ok, res [1]) ∧
    ended (exec (.rbIsFull 0 .rx) (runAt .query)) = some (.ok, res [0]) ∧
    ended (exec (.rbCount 0 .tx) (st (devRings Ring.unallocated ring3) blkRun (some .query) [])) = some (.ok, res [3]) ∧
    ended (exec (.rbIsFull 0 .tx) (st (devRings (Ring.alloc 8) Ring.unallocated) blkRun (some .query) [])) =
      some (.ok, res [1]) := by decide +kernel

/-- The worked example of 1.1: counts 3, 3 (wrapped), 7 at capacity 8. -/
theorem test_ring_count_wraps :
    Ring.count ⟨8, 5, 2, []⟩ = 3 ∧ Ring.count ⟨8, 1, 6, []⟩ = 3 ∧ Ring.count ⟨8, 7, 0, []⟩ = 7 ∧
    Ring.isFull ⟨8, 7, 0, []⟩ = true ∧ Ring.count ⟨8, 4, 4, []⟩ = 0 := by decide

/-- V-RB-4, V-RB-5, and R262: a wrong side is found before a bad frame. -/
theorem test_rb_push_checks :
    ended (exec (.rbPush 0 .rx) (run [1, 0, 0, 0])) = some (.errOwner, res []) ∧
    ended (exec (.rbPush 0 .rx) (run [1, 9, 0, 0])) = some (.errOwner, res []) ∧
    ended (exec (.rbPush 0 .tx) (run [0x800, 0, 0, 0])) = some (.errArg, res []) := by decide +kernel

/-- The fill step stores `{0x18DAF1AB, EXT, DATA, 8, [01 .. 08]}` little-endian (2.3, 20_memory.md R55). -/
theorem test_rb_push_fill :
    ((nextOf (exec (.rbPush 0 .tx) (runAt (.pushFill 1 (Frame.ofWords ⟨0x38DAF1AB, 8, 0x04030201, 0x08070605⟩))))).map
      fun t => (t.ring ⟨0, .tx⟩).slot) =
    some [(16, 0xAB), (17, 0xF1), (18, 0xDA), (19, 0x38), (20, 8), (21, 0), (22, 0), (23, 0),
      (24, 1), (25, 2), (26, 3), (27, 4), (28, 5), (29, 6), (30, 7), (31, 8)] := by decide +kernel

/-- V-RB-13 and V-RB-9. -/
theorem test_rb_peek :
    ((nextOf (exec (.rbPeek 0 .rx) (st (devRings ring1 (Ring.alloc 4)) blkRun (some (.peekRead 0)) []))).map
      fun t => t.cur) = some (some (.finishFrame (some (Frame.ofWords wRemote)))) ∧
    ended (exec (.rbPeek 0 .tx) (run [])) = some (.errOwner, res []) := by decide +kernel

/-- V-RB-15: `TAIL` wraps. -/
theorem test_rb_pop_wraps :
    ((nextOf (exec (.rbPop 0 .rx)
      (st (devRings ⟨4, 0, 3, []⟩ (Ring.alloc 4)) blkRun (some (.popAdvance 3 none)) []))).map fun t =>
        ((t.ring ⟨0, .rx⟩).tail, (t.ring ⟨0, .rx⟩).isEmpty)) = some (0, true) := by decide +kernel

/-- 2.5: 1,000,000 bit/s at 72 MHz, and 1,000,000 at 8 MHz, the edge of the search order. -/
theorem test_bt_solve :
    ended (exec .btSolve (run [1000000, 72000000])) =
      some (.ok, res [0x001E0003, 4, 0x1201020F, 72000000, 1000000, 888]) ∧
    ended (exec .btSolve (run [1000000, 8000000])) =
      some (.ok, res [0x00050000, 1, 0x08010106, 8000000, 1000000, 875]) := by decide +kernel

/-- 2.5: a rate above the maximum, rate 0, clock 0, and a window with no divisor. -/
theorem test_bt_solve_fails :
    ended (exec .btSolve (run [1000001, 72000000])) = some (.errBaud, res []) ∧
    ended (exec .btSolve (run [0, 72000000])) = some (.errBaud, res []) ∧
    ended (exec .btSolve (run [500000, 0])) = some (.errBaud, res []) ∧
    ended (exec .btSolve (run [1000, 1000])) = some (.errBaud, res []) := by decide +kernel

/-- 1.2: 83,333 bit/s needs the 289th clock of the window. -/
theorem test_bt_solve_window :
    ended (exec .btSolve (run [83333, 72000000])) =
      some (.ok, res [0x001C0035, 54, 0x1001020D, 71999712, 83333, 875]) := by decide +kernel

/-- R136, worked by hand: at 72,000,100 Hz the search ends at `c` = 72,000,000, and `RES4` is the rate at the nominal clock,
floor(72000100 / 72) (notes/assumptions/20.md). -/
theorem test_bt_solve_nominal_rate :
    ended (exec .btSolve (run [1000000, 72000100])) =
      some (.ok, res [0x001E0003, 4, 0x1201020F, 72000000, 1000001, 888]) := by decide +kernel

/-- V-FLT-12, V-FLT-E11. -/
theorem test_flt_configure :
    ended (exec (.fltConfigure 0 3) (run [0x24600000, 0xFFE00004, 6])) = some (.ok, res [0x24600000, 0xFFE00004]) ∧
    ended (exec (.fltConfigure 0 3) (run [0, 0, 8])) = some (.errArg, res []) := by decide +kernel

/-- V-FLT-1, V-FLT-E3, V-FLT-E9, V-FLT-E15. -/
theorem test_flt_mask32_std :
    ended (exec (.fltMask32Std 0 0) (run [0x123, 0x7FF])) = some (.ok, res [0x24600000, 0xFFE00004]) ∧
    ended (exec (.fltMask32Std 0 3) (run [0x800, 0x7FF])) = some (.errRange, res []) ∧
    ended (exec (.fltMask32Std 0 14) (run [0x800, 0x7FF])) = some (.errBank, res []) ∧
    ended (exec (.fltMask32Std 0 14) (st { devRun with st := .configured } blkRun (some .start) [0x800, 0x7FF])) =
      some (.errState, res []) := by decide +kernel

/-- V-FLT-4, V-FLT-E5. -/
theorem test_flt_mask32_ext :
    ended (exec (.fltMask32Ext 0 1) (run [0x18DAF100, 0x1FFFFF00])) = some (.ok, res [0xC6D78804, 0xFFFFF804]) ∧
    ended (exec (.fltMask32Ext 0 1) (run [0x20000000, 0x1FFFFFFF])) = some (.errRange, res []) := by decide +kernel

/-- V-FLT-5, V-FLT-E7, V-FLT-E8. -/
theorem test_flt_list32_std :
    ended (exec (.fltList32Std 0 2) (run [0x123, 0x456, 2])) = some (.ok, res [0x24600000, 0x8AC00002]) ∧
    ended (exec (.fltList32Std 0 2) (run [0x123, 0x456, 4])) = some (.errArg, res []) ∧
    ended (exec (.fltList32Std 0 2) (run [0x800, 0x456, 4])) = some (.errRange, res []) := by decide +kernel

/-- V-FLT-6. -/
theorem test_flt_list32_ext :
    ended (exec (.fltList32Ext 0 4) (run [1, 0x1FFFFFFF, 2])) = some (.ok, res [0x0000000C, 0xFFFFFFFE]) := by
  decide +kernel

/-- V-FLT-7, V-FLT-E6. -/
theorem test_flt_mask16 :
    ended (exec (.fltMask16 0 5) (run [0x100, 0x7F0, 0x200, 0x7FF])) = some (.ok, res [0x40002000, 0xFFE8FE08]) ∧
    ended (exec (.fltMask16 0 5) (run [0x100, 0x7F0, 0x800, 0x7FF])) = some (.errRange, res []) := by decide +kernel

/-- V-FLT-8, V-FLT-E10. -/
theorem test_flt_list16 :
    ended (exec (.fltList16 0 6) (run [0x10, 0x20, 0x30, 0x7FF, 2])) = some (.ok, res [0x04100200, 0xFFE00600]) ∧
    ended (exec (.fltList16 0 6) (run [0x10, 0x20, 0x30, 0x7FF, 0x10])) = some (.errArg, res []) := by decide +kernel

/-- V-FLT-10, V-FLT-E12. -/
theorem test_flt_accept_all :
    ended (exec (.fltAcceptAll 0) (run [1])) = some (.ok, res [4, 4, 1]) ∧
    ended (exec (.fltAcceptAll 0) (run [2])) = some (.errArg, res []) := by decide +kernel

/-- V-FLT-E13, V-FLT-E16. -/
theorem test_flt_toggles :
    ended (exec (.fltEnable 0 2) (run [])) = some (.errArg, res []) ∧
    ended (exec (.fltDisable 0 9) (run [])) = some (.ok, res []) := by decide +kernel

/-- The state after V-FLT-4 in bank 1. -/
def programmed : State :=
  { run [] with
    flt := [{ banks := (List.replicate 28 Bank.reset).set 1 ⟨0xC6D78804, 0xFFFFF804, false, true, true, true⟩, wp := true }] }

/-- `FLT_READ` after V-FLT-4 and `FLT_DISABLE d0 #1`: 0xA. -/
theorem test_flt_read :
    ended (exec (.fltRead 0 1) { (run []).setArray 0 (programmed.setActive 0 1 false |>.array 0) with cur := some .start }) =
      some (.ok, res [0xC6D78804, 0xFFFFF804, 0xA]) ∧
    ended (exec (.fltRead 0 1) programmed) = some (.ok, res [0xC6D78804, 0xFFFFF804, 0xE]) := by decide +kernel

/-- The `FLT_CLEAR_ALL` vector of 2.6: the owned bank is cleared, a bank of the other block is not. -/
theorem test_flt_clear_all :
    ((nextOf (exec (.fltClearAll 0) { programmed with
        flt := [{ banks := (List.replicate 28 { Bank.reset with fcfg := true }), wp := true }] })).map fun t =>
      (t.bank 0 13, t.bank 0 14, (t.array 0).wp)) =
    some (Bank.reset, { Bank.reset with fcfg := true }, true) := by decide +kernel

/-- Acceptance table of 2.6, V-FLT-4 and V-FLT-7: type separation, halves. -/
theorem test_acceptance :
    Bank.accepts ⟨0xC6D78804, 0xFFFFF804, false, true, true, true⟩ (Frame.ofWords ⟨0x38DAF1AB, 8, 0, 0⟩) = true ∧
    Bank.accepts ⟨0xC6D78804, 0xFFFFF804, false, true, true, true⟩ (Frame.ofWords ⟨0x123, 0, 0, 0⟩) = false ∧
    Bank.accepts ⟨0x40002000, 0xFFE8FE08, false, false, true, true⟩ (Frame.ofWords ⟨0x10F, 0, 0, 0⟩) = true ∧
    Bank.accepts ⟨0x40002000, 0xFFE8FE08, false, false, true, true⟩ (Frame.ofWords ⟨0x40000200, 0, 0, 0⟩) = true ∧
    Bank.accepts ⟨0x40002000, 0xFFE8FE08, false, false, true, true⟩ (Frame.ofWords ⟨0x123, 0, 0, 0⟩) = false := by
  decide +kernel

/-- V-FLT-8's acceptance column: a list entry is tied to its `rtr`; and the words `W32`, `H16` of 0x12345678 EXT REMOTE. -/
theorem test_acceptance_list :
    Bank.accepts ⟨0x04100200, 0xFFE00600, true, false, true, true⟩ (Frame.ofWords ⟨0x40000020, 0, 0, 0⟩) = true ∧
    Bank.accepts ⟨0x04100200, 0xFFE00600, true, false, true, true⟩ (Frame.ofWords ⟨0x20, 0, 0, 0⟩) = false ∧
    (Frame.ofWords ⟨0x72345678, 0, 0, 0⟩).w32 = 0x91A2B3C6 ∧ (Frame.ofWords ⟨0x72345678, 0, 0, 0⟩).h16 = 0x91B8 := by
  decide +kernel

/-- V-CTL-3, V-CTL-6, V-CTL-7, V-CTL-10. -/
theorem test_open :
    ended (exec (.devOpen 0) (st DevState.reset BlockState.reset (some .start) [3, 0])) = some (.errCap, res []) ∧
    ended (exec (.devOpen 0) (st DevState.reset BlockState.reset (some .start) [8, 2])) = some (.errCap, res []) ∧
    ended (exec (.devOpen 1) (run [3, 8])) = some (.errCap, res []) ∧
    ((nextOf (exec (.devOpen 0) (st DevState.reset BlockState.reset (some .start) [8, 0]))).map fun t =>
      (t.code, (t.device 0).st, (t.block 0).claim, (t.ring ⟨0, .rx⟩).cap, (t.ring ⟨0, .tx⟩).cap)) =
      some (.ok, .configured, true, 8, 0) := by decide +kernel

/-- Device 0 CONFIGURED, as after V-CTL-7, with the given rate and answers of the environment. -/
def configured (baud : Word) (draws : List Word) : State :=
  { st { DevState.reset with st := .configured, rxr := Ring.alloc 8 } { BlockState.reset with claim := true } (some .start)
      [baud] with tape := draws }

/-- V-CTL-15, V-CTL-14, V-CTL-13. -/
theorem test_begin :
    ((nextOf (exec (.devBegin 0) (configured 500000 [1]))).map fun t =>
      (t.code, t.res.r0, (t.device 0).st, (t.device 0).rxIe, (t.block 0).hwMode)) =
      some (.ok, 0x001C0008, .running, true, .normal) ∧
    ((nextOf (exec (.devBegin 0) (configured 500000 [0]))).map fun t =>
      (t.code, (t.device 0).st, (t.block 0).hwMode, (t.device 0).baudValid)) = some (.errHw, .configured, .reset, false) ∧
    ended (exec (.devBegin 0) (configured 1000001 [])) = some (.errBaud, res []) := by decide +kernel

/-- P5: `BEGIN d2, 83333` drives pin 5 to its awake level 0; `CLOSE d2` drives it to 1. -/
theorem test_transceiver :
    ((nextOf (exec (.devBegin 2)
      { st DevState.reset BlockState.reset (some .start) [250000] with
        tape := [1], dev := [DevState.reset, DevState.reset, { DevState.reset with st := .configured }] })).map fun t =>
      t.trx 2) = some .low ∧
    ((nextOf (exec (.devClose 2)
      { st DevState.reset BlockState.reset (some .start) [] with
        dev := [DevState.reset, DevState.reset, { DevState.reset with st := .configured }] })).map fun t =>
      t.trx 2) = some .high := by decide +kernel

/-- RC with pin 5 given to device 0 as well. -/
def sharedPin : Config :=
  { Config.reference with
    desc := [{ Desc.reference 0 0 .primary 0 13 0 1 (some 5) with trxAwake := true },
      Desc.reference 0 1 .primary 0 13 0 1 none, Desc.reference 1 0 .secondary 14 27 2 3 (some 5)] }

/-- Device 2 CONFIGURED, `BEGIN d2` in `CMD` and `APP` chosen. -/
def sharing : State :=
  { State.resetOf sharedPin with
    dev := [DevState.reset, DevState.reset, { DevState.reset with st := .configured }]
    blk := [BlockState.reset, { BlockState.reset with claim := true, owner := 2 }]
    arg := Words8.ofList [250000], cmd := 0x231, cur := some .start, tape := [1], sched := [.app] }

/-- R31: `TRX[d]` is the level on `DESC[d].trx_pin`; `BEGIN d2` drives pin 5 to device 2's awake level, which `TRX[0]`
names too (notes/assumptions/13.md). -/
theorem test_transceiver_shared_pin :
    ((nextOf (exec (.devBegin 2) sharing)).map fun t => (t.trx 0, t.trx 1, t.trx 2)) =
      some (.low, .z, .low) := by decide +kernel

/-- V-CTL-18, V-CTL-19 with the drawn mode INIT. -/
theorem test_set_baudrate :
    ((nextOf (exec (.setBaudrate 0) { run [250000] with tape := [1, 1] })).map fun t =>
      (t.code, t.res.r0, (t.device 0).timing, (t.device 0).baud)) = some (.ok, 0x001C0011, 0x001C0011, 250000) ∧
    ((nextOf (exec (.setBaudrate 0) { run [125000] with tape := [0, 0, 7, 9] })).map fun t =>
      (t.code, (t.device 0).baudValid, (t.device 0).st, (t.block 0).hwMode)) = some (.errHw, false, .running, .init) := by
  decide +kernel

/-- V-CTL-21, V-CTL-23. -/
theorem test_close :
    ((nextOf (exec (.devClose 0) (run []))).map fun t =>
      (t.code, (t.device 0).st, (t.block 0).claim, (t.ring ⟨0, .rx⟩).cap, (t.block 0).hwMode)) =
      some (.ok, .uninit, false, 0, .reset) ∧
    ended (exec (.devClose 0) (st DevState.reset blkRun (some .start) [])) = some (.errState, res []) := by decide +kernel

/-- V-WR-1 (its direct step), V-WR-7. -/
theorem test_write :
    ((nextOf (exec (.write 0)
      (st (devRings (Ring.alloc 4) Ring.unallocated) blkRun (some (.direct (Frame.ofWords ⟨0x123, 2, 0x2211, 0⟩))) []))).map
        fun t => ((t.block 0).mbox, (t.device 0).txIe)) = some ([Frame.ofWords ⟨0x123, 2, 0x2211, 0⟩], false) ∧
    ended (exec (.write 0) (run [0x100, 9, 0, 0])) = some (.errArg, res []) := by decide +kernel

/-- V-WR-4, its last step, and V-WR-5: with a frame in the ring no direct send is attempted. -/
theorem test_write_queued :
    ((nextOf (exec (.write 0) (runAt (.finishBool true)))).map fun t => (t.code, t.res.r0, (t.device 0).txIe)) =
      some (.ok, 1, true) ∧
    ((nextOf (exec (.write 0) (st (devRings (Ring.alloc 4) ring1) blkRun (some (.testEmpty (Frame.ofWords wA))) []))).map
      fun t => t.cur) = some (some (.pushCheck (Frame.ofWords wA))) := by decide +kernel

/-- The table of `AVAILABLE_FOR_WRITE`: 0 and 1 mailbox used gives 2; capacity 4, count 1, 1 used gives 4. V-RD-6. -/
theorem test_available :
    ended (exec (.availableForWrite 0) (st (devRings (Ring.alloc 8) Ring.unallocated)
      { blkRun with mbox := [Frame.ofWords wA] } (some .start) [])) = some (.ok, res [2]) ∧
    ended (exec (.availableForWrite 0) (st (devRings (Ring.alloc 8) ring1)
      { blkRun with mbox := [Frame.ofWords wA] } (some .start) [])) = some (.ok, res [4]) ∧
    ended (exec (.available 0) (st (devRings ring1 (Ring.alloc 4)) blkRun (some .start) [])) = some (.ok, res [1]) := by
  decide +kernel

/-- V-RD-1 and V-RD-4, their last steps. -/
theorem test_peek :
    ((nextOf (exec (.peek 0) (st { devRun with rxIe := false } blkRun (some (.finishFrame none)) []))).map fun t =>
      (t.code, (t.device 0).rxIe)) = some (.empty, true) ∧
    ((nextOf (exec (.peek 0) (runAt .mask))).map fun t => ((t.device 0).rxIe, t.cur)) = some (false, some .peekCheck) := by
  decide +kernel

theorem test_read :
    ((nextOf (exec (.read 0) (runAt (.finishFrame (some (Frame.ofWords wRemote)))))).map fun t => (t.code, t.res.r0)) =
      some (.ok, 0x400007FF) ∧
    ((nextOf (exec (.read 0) (st (devRings ring2 (Ring.alloc 4)) blkRun (some (.peekRead 0)) []))).map fun t => t.cur) =
      some (some (.popCheck (some (Frame.ofWords wA)))) := by decide +kernel

/-- The example of R201 and two rows of the table of 2.7. -/
theorem test_get_error :
    ended (exec (.getError 0) { run [] with tape := [0x00600030] }) = some (.ok, res [0x00000104, 0x00600030]) ∧
    classify 0x00FF0064 = 0x00000410 ∧ classify 0x80000020 = 0x00000202 ∧ classify 0x5F5F0000 = 0 := by decide +kernel

/-- V-IRQ-2: a full ring disables the interrupt. -/
theorem test_irq_rx_back_pressure :
    ((nextOf (exec (.irqRx 0) (st (devRings ring3 (Ring.alloc 4)) blkRun none []))).map fun t => t.active) =
      some [⟨⟨0, .rx⟩, .backPressure⟩] ∧
    ((nextOf (exec (.irqRx 0) { st (devRings ring3 (Ring.alloc 4)) blkRun none [] with
        active := [⟨⟨0, .rx⟩, .backPressure⟩] })).map fun t => ((t.device 0).rxIe, t.active)) = some (false, []) := by
  decide +kernel

/-- V-IRQ-6: the last step clears `TX_IE` when the ring is empty; 1.5: it stays 1 when a frame is left. -/
theorem test_irq_tx_exit :
    ((nextOf (exec (.irqTx 0) { st { devRun with txIe := true } blkRun none [] with
        active := [⟨⟨0, .tx⟩, .exit⟩] })).map fun t => ((t.device 0).txIe, t.active)) = some (false, []) ∧
    ((nextOf (exec (.irqTx 0) { st { devRings (Ring.alloc 4) ring1 with txIe := true } blkRun none [] with
        active := [⟨⟨0, .tx⟩, .exit⟩] })).map fun t => ((t.device 0).txIe, t.active)) = some (true, []) := by
  decide +kernel

/-- A block that accepts every standard frame (V-FLT-9 in bank 0), with the given FIFO and draws. -/
def listening (fifo : List Frame) (draws : List Word) : State :=
  { st devRun { blkRun with rxfifo := fifo } none [] with
    flt := [{ banks := (List.replicate 28 Bank.reset).set 0 ⟨0, 4, false, true, true, true⟩, wp := true }], tape := draws }

/-- V-BUS-3, V-BUS-5 (draw 1 is OVERWRITE_LAST), V-BUS-6. -/
theorem test_bus_arrival :
    ((busArrive 0 (listening [Frame.ofWords wA] [0x201, 1, 0xB0, 0])).block 0).rxfifo =
      [Frame.ofWords wA, Frame.ofWords wB] ∧
    ((busArrive 0 (listening [Frame.ofWords wA, Frame.ofWords wB, Frame.ofWords wC] [0x203, 1, 0xD0, 0, 1])).block 0).rxfifo =
      [Frame.ofWords wA, Frame.ofWords wB, Frame.ofWords wD] ∧
    ((busArrive 0 { run [] with tape := [0x203, 1, 0xD0, 0] }).block 0).rxfifo = [] := by decide +kernel

/-- V-BUS-1, V-BUS-2. -/
theorem test_bus_completion :
    ((busComplete 0 (st devRun { blkRun with mbox := [Frame.ofWords wA, Frame.ofWords wB] } none [])).block 0).mbox =
      [Frame.ofWords wB] ∧
    ((busComplete 0 (st devRun { blkRun with mbox := [Frame.ofWords wA], hwMode := .init } none [])).block 0).mbox =
      [Frame.ofWords wA] := by decide +kernel

/-- V-PORT-1 to V-PORT-6, V-PORT-8. -/
theorem test_port :
    (([⟨true, 0x40006004, 32, 0⟩, ⟨false, 0x40006000, 16, 0⟩, ⟨false, 0x40006008, 32, 0⟩, ⟨false, 0x40006012, 32, 0⟩,
       ⟨true, 0x40006010, 32, 0⟩, ⟨true, 0x40006030, 32, 0⟩] : List PortAccess).all fun a =>
      match portAccess a (run []) with
      | .next t => decide (t.faults = [⟨.port a.addr a.width, .app⟩])
      | _ => false) = true ∧
    ((nextOf (portAccess ⟨false, 0x40006004, 32, 0⟩ (run []))).map fun t => t.readData) = some 0x100 := by decide +kernel

/-- P1, line 3 of its port expansion: the store to `CMD` starts the command; the step after it decodes `WRITE d0`. -/
theorem test_step_runs_command :
    ((nextOf (portAccess ⟨true, 0x40006000, 32, 0x34⟩ (st devRun blkRun none []))).map fun t => (t.cmd, t.cur)) =
      some (0x34, some .start) ∧
    ((nextOf (step ((st devRun blkRun none [0x123, 2, 0x2211, 0]).withFetchWord 32 0x34))).map fun t => t.cur) =
      some (some (.testEmpty (Frame.ofWords ⟨0x123, 2, 0x2211, 0⟩))) := by decide +kernel

/-- V-IRQ-10, V-IRQ-12, V-IRQ-13. -/
theorem test_priorities :
    ({ st { devRun with txIe := true } { blkRun with rxfifo := [Frame.ofWords wA] } none [] with
        active := [⟨⟨0, .rx⟩, .receive⟩] } : State).enabled (.enter ⟨0, .tx⟩) = false ∧
    (st { devRun with txIe := true } { blkRun with rxfifo := [Frame.ofWords wA] } none []).enabled (.enter ⟨0, .rx⟩) = true ∧
    (st { devRun with txIe := true } { blkRun with rxfifo := [Frame.ofWords wA] } none []).enabled (.enter ⟨0, .tx⟩) =
      false ∧
    ({ run [] with active := [⟨⟨0, .rx⟩, .receive⟩] } : State).enabled .app = false := by decide +kernel

/-! ## Witnesses: states and operands that meet the hypotheses of each statement, clause by clause -/

/-- An outcome that is a next state with a decided property. -/
theorem exists_next {r : Result} (p : State → Bool) (h : (nextOf r).any p = true) : ∃ t, r = .next t ∧ p t = true := by
  cases r <;> simp_all [nextOf]

theorem reference_admitted : Config.reference.admitted = true := by decide +kernel

/-- A state of the reference configuration with three devices, two blocks and the filters as after reset. -/
theorem fits_of {s : State} (hc : s.cfg = Config.reference) (hd : s.dev.length = 3) (hb : s.blk.length = 2)
    (hf : s.flt = [{ banks := List.replicate 28 Bank.reset, wp := true }]) : s.Fits := by
  refine ⟨by rw [hc]; exact reference_admitted, by rw [hc, hd]; rfl, by rw [hc, hb]; rfl, by rw [hc, hf]; rfl, ?_⟩
  rw [hc]
  intro a ha
  have h0 : a = 0 := Nat.lt_one_iff.1 ha
  subst h0
  simp only [State.array, hf]
  rfl

theorem st_fits (x : DevState) (y : BlockState) (p : Option Pos) (args : List Word) : (st x y p args).Fits :=
  fits_of rfl rfl rfl rfl

theorem st_ready {x : DevState} (y : BlockState) (p : Option Pos) (args : List Word) (h : x.st = .running) :
    (st x y p args).Ready 0 := ⟨rfl, h⟩

theorem ring_ok : Ring.unallocated.Ok ∧ (Ring.alloc 4).Ok ∧ ring1.Ok ∧ ring2.Ok ∧ ring3.Ok := by
  unfold Ring.Ok Ring.SlotWritten
  decide +kernel

/-- One block, one array of one bank, one device that owns it. -/
def tiny : Config :=
  { numBlocks := 1, farrays := [⟨1, 1⟩], mboxCount := 1, rxFifoDepth := 1, hwTxMayFail := true, canqBase := 0
    multicore := false
    desc := [{ Desc.absent with present := true, role := .standalone, pclk := 8000000 }], irqnRx := [0], irqnTx := [0] }

/-- Its device RUNNING. -/
def tinyRun (args : List Word) : State :=
  { State.resetOf tiny with
    dev := [devRun], blk := [blkRun], cur := some .start, arg := Words8.ofList args }

theorem witness_StartsOnRunning :
    (run []).pos = .start ∧ (run []).cfg.hasDevice 3 = false ∧ (run []).cfg.hasDevice 0 = true ∧
    (st DevState.reset blkRun (some .start) []).pos = .start ∧
    ((st DevState.reset blkRun (some .start) []).device 0).st ≠ .running := by decide +kernel

theorem witness_StartsOnOwnedBank :
    (run []).pos = .start ∧ (run []).Ready 0 ∧ (run []).ownsBank 0 14 = false ∧ (run []).ownsBank 0 13 = true ∧
    (run []).ownsBank 0 0 = true := ⟨rfl, ⟨rfl, rfl⟩, by decide, by decide, by decide⟩

theorem witness_DecodeEncodeAgree :
    Instr.wf (.fltRead 15 31) = true ∧ encode (.fltRead 15 31) = some 0x001F0F2B ∧
    decode 0x00001F06 = .ok (.rbPop 15 .tx) := by decide +kernel

theorem witness_IllegalWords :
    ([0x00, 0x07, 0x0F, 0x11, 0x1F, 0x2C, 0x2F, 0x3A, 0xFF] : List Nat).all (fun w => decide
      (w % 256 = 0 ∨ (0x07 ≤ w % 256 ∧ w % 256 ≤ 0x0F) ∨ (0x11 ≤ w % 256 ∧ w % 256 ≤ 0x1F) ∨
       (0x2C ≤ w % 256 ∧ w % 256 ≤ 0x2F) ∨ 0x3A ≤ w % 256)) = true ∧
    (0x2001 : Word) &&& 0xFFE0E000 ≠ 0 ∧ (0x80000030 : Word) &&& 0xFFE0E000 ≠ 0 ∧
    decode 0x00000239 = .ok (.getError 2) ∧ Instr.format (.getError 2) ≠ .cmdR ∧ Instr.format .btSolve = .cmdN ∧
    decode 0x00000010 = .ok .btSolve := by decide +kernel

/-- A command word `w` accepted, `APP` first in the schedule. -/
def accepted (w : Word) : State := { run [] with cmd := w, sched := [.app] }

theorem witness_IllegalWords_step :
    (accepted 0x2C).cfg.admitted = true ∧ (accepted 0x2C).sched = [.app] ∧ (accepted 0x2C).active = [] ∧
    (accepted 0x2C).stopped .app = false ∧ (accepted 0x2C).cur = some .start ∧
    decode (accepted 0x2C).cmd = .error .noRow := by decide +kernel

/-- Device 0 with both lines at 1 and the given handlers active. -/
def lines (active : List Running) (sched : List Event) : State :=
  { st { devRings (Ring.alloc 4) ring1 with txIe := true } { blkRun with rxfifo := [Frame.ofWords wA] } none [] with
    active := active, sched := sched }

theorem witness_StepRunsInstruction :
    ((accepted 0x34).cfg.admitted = true ∧ (accepted 0x34).sched = [.app] ∧ (accepted 0x34).active = [] ∧
      (accepted 0x34).stopped .app = false ∧ (accepted 0x34).cur ≠ none ∧ decode (accepted 0x34).cmd = .ok (.write 0)) ∧
    decodeTableWord 32 0x34 = some (.write 0) ∧
    ((lines [] [.enter ⟨0, .rx⟩]).sched = [.enter ⟨0, .rx⟩] ∧
      (lines [] [.enter ⟨0, .rx⟩]).entryEnabled ⟨0, .rx⟩ = true) ∧
    (lines [⟨⟨0, .tx⟩, .loopTest⟩] [.resume ⟨0, .tx⟩]).sched = [.resume ⟨0, .tx⟩] ∧
    (lines [⟨⟨0, .tx⟩, .loopTest⟩] [.resume ⟨0, .tx⟩]).resumeEnabled ⟨0, .tx⟩ = true := by decide +kernel

/-- The host program about to take its first operation: idle, and while a command is in progress. -/
def hosting (p : Option Pos) (e : Event) (op : HostOp) : State :=
  { st devRun blkRun p [] with sched := [e], host := [op] }

theorem witness_WhoMayStep :
    (run []).cfg.admitted = true ∧ (run []).sched = [] ∧ (accepted 0x34).sched = [.app] ∧
    (accepted 0x34).enabled .app = true ∧ (lines [] []).line ⟨0, .rx⟩ = true ∧ (lines [] []).line ⟨0, .tx⟩ = true ∧
    (lines [⟨⟨0, .tx⟩, .loopTest⟩] []).enabled (.enter ⟨0, .rx⟩) = true ∧
    (lines [⟨⟨0, .tx⟩, .loopTest⟩] []).enabled (.resume ⟨0, .tx⟩) = true ∧
    (hosting (some .start) .port .poll).enabled .port = true ∧ (run []).enabled (.complete 1) = true := by
  decide +kernel

/-- Each forbidden access of R52 at the edges of its range: idle first, then while a command is in progress. -/
theorem witness_PortFaults :
    (run []).cfg.canqBase = 0x40006000 ∧ (run []).cur ≠ none ∧
    ([(false, 16, 0x00), (false, 32, 0x02), (false, 32, 0x08), (true, 32, 0x0C), (false, 32, 0x50), (true, 32, 0xFC),
      (true, 32, 0x04), (true, 32, 0x30), (true, 32, 0x4C), (true, 32, 0x00), (true, 32, 0x10), (true, 32, 0x2C),
      (false, 32, 0x30), (false, 32, 0x4C)] : List (Bool × Nat × Nat)).all (fun x => decide
        (x.2.2 < 0x100 ∧ (x.2.1 ≠ 32 ∨ x.2.2 % 4 ≠ 0 ∨ x.2.2 = 0x08 ∨ x.2.2 = 0x0C ∨ 0x50 ≤ x.2.2 ∨
         (x.1 = true ∧ (x.2.2 = 0x04 ∨ (0x30 ≤ x.2.2 ∧ x.2.2 < 0x50))) ∨
         (x.1 = true ∧ (run []).cur ≠ none ∧ (x.2.2 = 0x00 ∨ (0x10 ≤ x.2.2 ∧ x.2.2 < 0x30))) ∨
         (x.1 = false ∧ (run []).cur ≠ none ∧ 0x30 ≤ x.2.2 ∧ x.2.2 < 0x50)))) = true := by decide +kernel

theorem witness_PortRegisters :
    (st devRun blkRun none []).cur = none ∧ (st devRun blkRun none []).cfg.canqBase = 0x40006000 ∧
    ([0x00, 0x04, 0x10 + 4 * 0, 0x10 + 4 * 7, 0x30 + 4 * 0, 0x30 + 4 * 7] : List Nat).all
      (fun off => decide (off < 0x100 ∧ (0x40006000 + off : Nat) = (st devRun blkRun none []).cfg.canqBase + off)) = true ∧
    (⟨false, 0x40006004, 32, 0⟩ : PortAccess).write = false ∧ (⟨true, 0x4000602C, 32, 5⟩ : PortAccess).write = true ∧
    (⟨true, 0x4000602C, 32, 5⟩ : PortAccess).addr = 0x40006000 + (0x10 + 4 * 7) := by decide +kernel

theorem witness_PortRegisters_host :
    ((hosting none .app .poll).cfg.admitted = true ∧ (hosting none .app .poll).active = [] ∧
      (hosting none .app .poll).stopped .app = false ∧ (hosting none .app .poll).cur = none ∧
      (hosting none .app .poll).sched = [.app] ∧ (hosting none .app .poll).host = [.poll]) ∧
    ((hosting (some .start) .port .poll).cfg.admitted = true ∧ (hosting (some .start) .port .poll).active = [] ∧
      (hosting (some .start) .port .poll).stopped .app = false ∧ (hosting (some .start) .port .poll).cur ≠ none ∧
      (hosting (some .start) .port .poll).sched = [.port]) ∧
    (hosting none .app (.access ⟨true, 0x40006000, 32, 0x34⟩)).host = [.access ⟨true, 0x40006000, 32, 0x34⟩] ∧
    (hosting none .app (.access ⟨true, 0x40006000, 32, 0x34⟩)).cur = none := by decide +kernel

/-- R87: the wait stays in the queue while `BUSY` is 1, and leaves it at the load that reads 0. -/
theorem test_poll :
    ((nextOf (step (hosting (some .start) .port .poll))).map fun t => (t.readData, t.host)) = some (0x100, [.poll]) ∧
    ((nextOf (step (hosting none .app .poll))).map fun t => (t.readData, t.host)) = some (0, []) := by decide +kernel

/-- An access that begins below the window ends the step, one that begins inside it is `F_PORT` (notes/assumptions/12.md). -/
theorem test_port_edges :
    (match portAccess ⟨false, 0x40005FFE, 32, 0⟩ (run []) with
      | .fault f => decide (f = .outsideWindow)
      | _ => false) = true ∧
    ((nextOf (portAccess ⟨false, 0x400060FE, 32, 0⟩ (run []))).map fun t => t.faults) =
      some [⟨.port 0x400060FE 32, .app⟩] := by decide +kernel

theorem witness_CommandChecks :
    (run []).pos = .start ∧ Instr.format (.write 3) = .cmdD ∧ Instr.format (.rbPop 15 .rx) = .cmdR ∧
    Instr.format (.fltRead 3 0) = .cmdB ∧ Instr.deviceOf (.write 3) ≥ (run []).cfg.numDev ∧
    (run []).cfg.hasDevice (Instr.deviceOf (.write 1)) = true ∧ ((run []).device 1).st ≠ .running ∧
    ((run []).device 0).st ≠ .configured ∧ ((run []).device 1).st = .uninit ∧ ((run []).device 0).st ≠ .uninit ∧
    ((run [4, 0]).arg.get 0).toNat ∈ Config.capSetRx ∧ ((run [4, 0]).arg.get 1).toNat ∈ Config.capSetTx := by
  decide +kernel

theorem witness_CommandChecks_registry : (run [4, 0]).RegistryOk := by
  unfold State.RegistryOk
  decide +kernel

theorem witness_AdmittedConfigurations :
    ({ State.reset with cfg := { Config.reference with multicore := true } } : State).cfg.admitted = false := by
  decide +kernel

theorem witness_RingQueries :
    (run []).pos = .start ∧ (run []).Ready 0 ∧ (runAt .query).cur = some .query := ⟨rfl, ⟨rfl, rfl⟩, rfl⟩

theorem witness_RbPushSteps :
    (run []).pos = .start ∧ (run []).Ready 0 ∧ (run [0x7FF, 9, 0, 0]).argFrame.valid = false ∧
    (run [0x7FF, 8, 0, 0]).argFrame.valid = true ∧ 0 < (run []).dev.length ∧
    3 < ((runAt (.pushFill 3 (Frame.ofWords wA))).ring ⟨0, .tx⟩).cap ∧
    (runAt (.pushPublish 3)).cur = some (.pushPublish 3) :=
  ⟨rfl, ⟨rfl, rfl⟩, by decide +kernel, by decide +kernel, by decide, by decide +kernel, rfl⟩

/-- `RB_PUSH`, `WRITE`: device 0 with a transmit ring and a valid frame operand. -/
def sending (tx : Ring) (y : BlockState) : State := st (devRings (Ring.alloc 4) tx) y (some .start) [0x7FF, 8, 1, 2]

theorem witness_RbPushRun :
    (sending ring3 blkRun).Fits ∧ (sending ring3 blkRun).Ready 0 ∧ ((sending ring3 blkRun).ring ⟨0, .tx⟩).Ok ∧
    (sending ring3 blkRun).pos = .start ∧ (sending ring3 blkRun).argFrame.valid = true ∧
    ((sending ring3 blkRun).ring ⟨0, .tx⟩).isFull = true ∧ ((sending ring2 blkRun).ring ⟨0, .tx⟩).Ok ∧
    ((sending ring2 blkRun).ring ⟨0, .tx⟩).isFull = false :=
  ⟨fits_of rfl rfl rfl rfl, ⟨rfl, rfl⟩, ring_ok.2.2.2.2, rfl, by decide +kernel, by decide +kernel, ring_ok.2.2.2.1,
    by decide +kernel⟩

/-- Device 0 with a receive ring, at a position. -/
def receiving (rx : Ring) (p : Pos) : State := st (devRings rx (Ring.alloc 4)) blkRun (some p) []

theorem witness_RbPeekPopSteps :
    (receiving ring1 .start).pos = .start ∧ (receiving ring1 .start).Ready 0 ∧
    (receiving ring1 .peekCheck).cur = some .peekCheck ∧ (receiving ring1 (.peekRead 0)).cur = some (.peekRead 0) ∧
    ((receiving ring1 (.peekRead 0)).ring ⟨0, .rx⟩).readSlot 0 = .ok wRemote ∧
    (receiving ring1 (.popCheck none)).cur = some (.popCheck none) ∧
    (receiving ring1 (.popAdvance 3 none)).cur = some (.popAdvance 3 none) ∧ 0 < (receiving ring1 .start).dev.length :=
  ⟨rfl, ⟨rfl, rfl⟩, rfl, rfl, by decide +kernel, rfl, rfl, by decide⟩

theorem witness_RbPeekPopRun :
    (receiving ring1 .start).Fits ∧ (receiving ring1 .start).Ready 0 ∧ ((receiving ring1 .start).ring ⟨0, .rx⟩).Ok ∧
    (receiving ring1 .start).pos = .start ∧ ((receiving ring1 .start).ring ⟨0, .rx⟩).isEmpty = false ∧
    ((receiving (Ring.alloc 4) .start).ring ⟨0, .rx⟩).Ok ∧
    ((receiving (Ring.alloc 4) .start).ring ⟨0, .rx⟩).isEmpty = true :=
  ⟨fits_of rfl rfl rfl rfl, ⟨rfl, rfl⟩, ring_ok.2.2.1, rfl, by decide +kernel, ring_ok.2.1, by decide +kernel⟩

theorem witness_RingFifo :
    Ring.unallocated.cap = 0 ∧ 0 ∈ Config.capSetTx ∧ 512 ∈ Config.capSetTx ∧ ring2.Ok ∧ 0 < ring2.cap ∧
    ring2.isFull = false ∧ ring2.isEmpty = false ∧ ring3.Ok ∧ ring3.isFull = true :=
  ⟨rfl, by decide, by decide, ring_ok.2.2.2.1, by decide +kernel, by decide +kernel, by decide +kernel,
    ring_ok.2.2.2.2, by decide +kernel⟩

theorem witness_SlotWords :
    ¬ (62 % 4 = 0 ∧ 62 + 4 ≤ 16 * ring1.cap) ∧ ¬ (64 % 4 = 0 ∧ 64 + 4 ≤ 16 * ring1.cap) ∧ 60 + 4 ≤ 16 * ring1.cap ∧
    Memory.read ring1.slot 0 = some 0xFF ∧ Memory.read ring1.slot 1 = some 0x07 ∧
    Memory.read ring1.slot 2 = some 0x00 ∧ Memory.read ring1.slot 3 = some 0x40 ∧
    Memory.read ring1.slot 60 = none := by decide +kernel

theorem witness_FrameLayout :
    FrameWords.valid ⟨0x7FF, 8, 0, 0⟩ = true ∧ FrameWords.valid ⟨0x7FFFFFFF, 0, 0, 0⟩ = true := by decide +kernel

theorem witness_SolverSearch :
    solve 1000000 72000000 = some ⟨4, 15, 2, 1, 18, 72000000⟩ ∧ solve 1000001 72000000 = none ∧
    solve 1000000 8000000 = some ⟨1, 6, 1, 1, 8, 8000000⟩ := by decide +kernel

theorem witness_SolverProperties : solve 500000 72000000 = some ⟨9, 13, 2, 1, 16, 72000000⟩ := by decide +kernel

theorem witness_BtSolve :
    (run [1000000, 72000000]).pos = .start ∧
    solve ((run [1000001, 72000000]).arg.get 0).toNat ((run [1000001, 72000000]).arg.get 1).toNat = none ∧
    solve ((run [1000000, 72000000]).arg.get 0).toNat ((run [1000000, 72000000]).arg.get 1).toNat =
      some ⟨4, 15, 2, 1, 18, 72000000⟩ := by decide +kernel

theorem witness_FilterWords :
    (0x7FF : Word).toNat ≤ 0x7FF ∧ (0x1FFFFFFF : Word).toNat ≤ 0x1FFFFFFF ∧
    (Frame.ofWords ⟨0x400007FF, 8, 0, 0⟩).valid = true ∧ (Frame.ofWords ⟨0x400007FF, 8, 0, 0⟩).ide = .std ∧
    (Frame.ofWords ⟨0x7FFFFFFF, 8, 0, 0⟩).valid = true ∧ (Frame.ofWords ⟨0x7FFFFFFF, 8, 0, 0⟩).ide = .ext := by
  decide +kernel

theorem witness_BankMatch :
    Bank.reset.fa = false ∧
    ([(false, true), (true, true), (false, false), (true, false)] : List (Bool × Bool)).all (fun x => decide
      ((⟨0, 0, x.1, x.2, true, true⟩ : Bank).fa = true ∧ (⟨0, 0, x.1, x.2, true, true⟩ : Bank).fm = x.1 ∧
       (⟨0, 0, x.1, x.2, true, true⟩ : Bank).fs = x.2)) = true := by decide

/-- The hypotheses every filter command shares. -/
theorem witness_owned (args : List Word) :
    (run args).Fits ∧ (run args).pos = .start ∧ (run args).Ready 0 ∧ (run args).ownsBank 0 13 = true ∧
    (run args).ownsBank 0 0 = true := ⟨fits_of rfl rfl rfl rfl, rfl, ⟨rfl, rfl⟩, rfl, rfl⟩

theorem witness_FltConfigureAndMask32 :
    8 ≤ ((run [0, 0, 8]).arg.get 2).toNat ∧ ((run [0, 0, 7]).arg.get 2).toNat < 8 ∧
    ¬ (((run [0x7FF, 0x800]).arg.get 0).toNat ≤ 0x7FF ∧ ((run [0x7FF, 0x800]).arg.get 1).toNat ≤ 0x7FF) ∧
    ((run [0x7FF, 0x7FF]).arg.get 0).toNat ≤ 0x7FF ∧ ((run [0x7FF, 0x7FF]).arg.get 1).toNat ≤ 0x7FF ∧
    ¬ (((run [0x20000000, 0]).arg.get 0).toNat ≤ 0x1FFFFFFF ∧ ((run [0x20000000, 0]).arg.get 1).toNat ≤ 0x1FFFFFFF) ∧
    ((run [0x1FFFFFFF, 0x1FFFFFFF]).arg.get 0).toNat ≤ 0x1FFFFFFF ∧
    ((run [0x1FFFFFFF, 0x1FFFFFFF]).arg.get 1).toNat ≤ 0x1FFFFFFF := by decide +kernel

theorem witness_FltList32 :
    ¬ (((run [0x800, 0, 4]).arg.get 0).toNat ≤ 0x7FF ∧ ((run [0x800, 0, 4]).arg.get 1).toNat ≤ 0x7FF) ∧
    ((run [0x7FF, 0x7FF, 3]).arg.get 0).toNat ≤ 0x7FF ∧ ((run [0x7FF, 0x7FF, 3]).arg.get 1).toNat ≤ 0x7FF ∧
    ((run [0x7FF, 0x7FF, 3]).arg.get 2).toNat < 4 ∧ 4 ≤ ((run [0x7FF, 0x7FF, 4]).arg.get 2).toNat ∧
    ¬ (((run [0x20000000, 0, 3]).arg.get 0).toNat ≤ 0x1FFFFFFF) ∧
    ((run [0x1FFFFFFF, 0, 3]).arg.get 0).toNat ≤ 0x1FFFFFFF := by decide +kernel

theorem witness_Flt16 :
    (∃ i < 4, 0x7FF < ((run [0x7FF, 0x7FF, 0x7FF, 0x800]).arg.get i).toNat) ∧
    (∀ i < 4, ((run [0x7FF, 0x7FF, 0x7FF, 0x7FF, 15]).arg.get i).toNat ≤ 0x7FF) ∧
    ((run [0x7FF, 0x7FF, 0x7FF, 0x7FF, 15]).arg.get 4).toNat < 16 ∧
    16 ≤ ((run [0x7FF, 0x7FF, 0x7FF, 0x7FF, 16]).arg.get 4).toNat := by
  refine ⟨⟨3, by decide +kernel⟩, by decide +kernel, by decide +kernel, by decide +kernel⟩

theorem witness_FltAcceptAllAndToggle :
    2 ≤ ((run [2]).arg.get 0).toNat ∧ ((run [1]).arg.get 0).toNat < 2 ∧
    ((run [1]).desc 0).firstBank + ((run [1]).arg.get 0).toNat ≤ ((run [1]).desc 0).maxBank ∧
    (tinyRun [1]).cfg.admitted = true ∧ (tinyRun [1]).pos = .start ∧ (tinyRun [1]).cfg.hasDevice 0 = true ∧
    ((tinyRun [1]).device 0).st = .running ∧ ((tinyRun [1]).arg.get 0).toNat < 2 ∧
    ((tinyRun [1]).desc 0).maxBank < ((tinyRun [1]).desc 0).firstBank + ((tinyRun [1]).arg.get 0).toNat ∧
    ((run []).bank ((run []).farrayOf 0) 0).fcfg = false ∧
    (programmed.bank (programmed.farrayOf 0) 1).fcfg = true := by decide +kernel

theorem tinyRun_fits : (tinyRun [1]).Fits := ⟨by decide +kernel, rfl, rfl, rfl, by decide⟩

theorem witness_FltClearAndRead : (run []).Fits ∧ (run []).pos = .start ∧ (run []).Ready 0 ∧ (run []).ownsBank 0 13 = true :=
  ⟨fits_of rfl rfl rfl rfl, rfl, ⟨rfl, rfl⟩, rfl⟩

theorem witness_FilterSemantics :
    (Frame.ofWords ⟨0x123, 1, 1, 0⟩).valid = true ∧ ((run [0x123, 0x7FF]).arg.get 0).toNat ≤ 0x7FF ∧
    ((run [0x123, 0x7FF]).arg.get 1).toNat = 0x7FF ∧ ((run [0x1FFFFFFF, 0x1FFFFFFF]).arg.get 0).toNat ≤ 0x1FFFFFFF ∧
    ((run [0x1FFFFFFF, 0x1FFFFFFF]).arg.get 1).toNat = 0x1FFFFFFF := by decide +kernel

theorem witness_FilterSemantics_next :
    (∃ t, exec (.fltMask32Std 0 0) (run [0x123, 0x7FF]) = .next t ∧
      (decide (t.code = .ok) && (t.bank 0 0).accepts (Frame.ofWords ⟨0x123, 1, 1, 0⟩)) = true) ∧
    ∃ t, exec (.fltList32Ext 0 0) (run [1, 0x1FFFFFFF, 2]) = .next t ∧
      (decide (t.code = .ok) && (t.bank 0 0).accepts (Frame.ofWords ⟨0x7FFFFFFF, 0, 0, 0⟩)) = true :=
  ⟨exists_next _ (by decide +kernel), exists_next _ (by decide +kernel)⟩

theorem witness_FilterRepeat :
    Instr.format (.fltEnable 0 1) = .cmdB ∧ (∃ t, exec (.fltEnable 0 1) programmed = .next t ∧
      decide (t.code = .ok) = true) ∧
    programmed.Fits ∧ programmed.Locked ∧ programmed.pos = .start ∧ programmed.Ready 0 ∧
    programmed.ownsBank 0 1 = true ∧ (programmed.bank (programmed.farrayOf 0) 1).fcfg = true ∧
    (programmed.bank (programmed.farrayOf 0) 1).fa = true :=
  ⟨rfl, exists_next _ (by decide +kernel), ⟨by decide +kernel, rfl, rfl, rfl, by decide +kernel⟩,
    by unfold State.Locked; decide +kernel, rfl, ⟨rfl, rfl⟩, rfl, by decide +kernel, by decide +kernel⟩

/-- No bank of the state is active. -/
theorem bank_of {s : State} {n : Nat} (h : s.flt = [{ banks := List.replicate n Bank.reset, wp := true }]) (a k : Nat) :
    s.bank a k = Bank.reset := by
  rcases a with _ | a
  · simp [State.bank, State.array, h, FilterArray.bank, List.getElem?_replicate]
    split <;> rfl
  · simp [State.bank, State.array, h, FilterArray.bank, FilterArray.absent]

theorem witness_BlockAcceptance :
    (run []).cfg.admitted = true ∧ 2 < (run []).cfg.numDev ∧
    ∀ k, (run []).enmask 2 k = false :=
  ⟨by decide +kernel, by decide, fun k => by
    rw [State.enmask, bank_of (s := run []) (n := 28) rfl]
    exact Bool.and_false _⟩

/-- A state before any `OPEN`, with the capacities given. -/
def opening (rx tx : Word) : State := st DevState.reset BlockState.reset (some .start) [rx, tx]

theorem witness_OpenDevice :
    (opening 512 0).Fits ∧ (opening 512 0).pos = .start ∧ (opening 512 0).cfg.hasDevice 0 = true ∧
    ((opening 512 0).arg.get 0).toNat ∈ [4, 8, 16, 32, 64, 128, 256, 512] ∧
    ((opening 512 0).arg.get 1).toNat ∈ [0, 4, 8, 16, 32, 64, 128, 256, 512] ∧
    ((opening 512 0).block ((opening 512 0).blockOf 0)).claim = false ∧
    ¬ (((opening 0 0).arg.get 0).toNat ∈ [4, 8, 16, 32, 64, 128, 256, 512] ∧
        ((opening 0 0).arg.get 1).toNat ∈ [0, 4, 8, 16, 32, 64, 128, 256, 512]) ∧
    ((run [4, 0]).block ((run [4, 0]).blockOf 1)).claim = true :=
  ⟨fits_of rfl rfl rfl rfl, rfl, rfl, by decide +kernel, by decide +kernel, rfl, by decide +kernel, rfl⟩

theorem witness_BeginDevice :
    (configured 500000 [1]).Fits ∧ (configured 500000 [1]).pos = .start ∧
    (configured 500000 [1]).cfg.hasDevice 0 = true ∧ ((configured 500000 [1]).device 0).st = .configured ∧
    solve ((configured 1000001 [1]).arg.get 0).toNat ((configured 1000001 [1]).desc 0).pclk = none ∧
    solve ((configured 500000 [1]).arg.get 0).toNat ((configured 500000 [1]).desc 0).pclk =
      some ⟨9, 13, 2, 1, 16, 72000000⟩ ∧
    drawnBool (configured 500000 [1]).nextDraw = true ∧ drawnBool (configured 500000 [0]).nextDraw = false :=
  ⟨fits_of rfl rfl rfl rfl, rfl, rfl, rfl, by decide +kernel, by decide +kernel, by decide +kernel, by decide +kernel⟩

theorem witness_SetBaudrate :
    (run [250000]).Fits ∧ (run [250000]).pos = .start ∧ (run [250000]).Ready 0 ∧
    solve ((run [0]).arg.get 0).toNat ((run [0]).desc 0).pclk = none ∧
    solve ((run [250000]).arg.get 0).toNat ((run [250000]).desc 0).pclk = some ⟨18, 13, 2, 1, 16, 72000000⟩ ∧
    (drawnBool ({ run [250000] with tape := [1, 1] } : State).nextDraw = true ∧
      drawnBool ({ run [250000] with tape := [1, 1] } : State).afterDraw.nextDraw = true) ∧
    ¬ (drawnBool ({ run [250000] with tape := [1, 0] } : State).nextDraw = true ∧
      drawnBool ({ run [250000] with tape := [1, 0] } : State).afterDraw.nextDraw = true) :=
  ⟨fits_of rfl rfl rfl rfl, rfl, ⟨rfl, rfl⟩, by decide +kernel, by decide +kernel, by decide +kernel, by decide +kernel⟩

theorem witness_CloseDevice :
    (run []).Fits ∧ (run []).pos = .start ∧ (run []).cfg.hasDevice 0 = true ∧ ((run []).device 0).st ≠ .uninit :=
  ⟨fits_of rfl rfl rfl rfl, rfl, rfl, by decide⟩

/-- Block 0 with every mailbox used. -/
def blkBusy : BlockState := { blkRun with mbox := [Frame.ofWords wA, Frame.ofWords wB, Frame.ofWords wC] }

theorem witness_WriteSteps :
    (run []).Fits ∧ (run []).cfg.hasDevice 0 = true ∧ (run [0x7FF, 9, 0, 0]).argFrame.valid = false ∧
    (run [0x7FF, 8, 0, 0]).argFrame.valid = true ∧
    (runAt (.testEmpty (Frame.ofWords wA))).cur = some (.testEmpty (Frame.ofWords wA)) ∧
    (runAt (.direct (Frame.ofWords wA))).cur = some (.direct (Frame.ofWords wA)) ∧
    (((run []).block ((run []).blockOf 0)).mbox.length < (run []).cfg.mboxCount ∧
      ((run []).block ((run []).blockOf 0)).hwMode = .normal ∧ (run []).cfg.hwTxMayFail = false) ∧
    ¬ ((sending (Ring.alloc 4) blkBusy).block 0).mbox.length < (run []).cfg.mboxCount ∧
    3 < ((runAt (.pushFill 3 (Frame.ofWords wA))).ring ⟨0, .tx⟩).cap ∧
    (runAt (.pushPublish 3)).cur = some (.pushPublish 3) ∧
    (runAt (.finishBool true)).cur = some (.finishBool true) :=
  ⟨fits_of rfl rfl rfl rfl, rfl, by decide +kernel, by decide +kernel, rfl, rfl, by decide +kernel, by decide +kernel,
    by decide +kernel, rfl, rfl⟩

theorem witness_WriteRun :
    (sending ring2 blkRun).Fits ∧ (sending ring2 blkRun).Ready 0 ∧ (sending ring2 blkRun).pos = .start ∧
    (sending ring2 blkRun).argFrame.valid = true ∧
    (((sending (Ring.alloc 4) blkRun).ring ⟨0, .tx⟩).Ok ∧ ((sending (Ring.alloc 4) blkRun).ring ⟨0, .tx⟩).isEmpty = true ∧
      ((sending (Ring.alloc 4) blkRun).block 0).mbox.length < (sending (Ring.alloc 4) blkRun).cfg.mboxCount ∧
      ((sending (Ring.alloc 4) blkRun).block 0).hwMode = .normal ∧
      (sending (Ring.alloc 4) blkRun).cfg.hwTxMayFail = false) ∧
    (((sending ring2 blkRun).ring ⟨0, .tx⟩).Ok ∧ ((sending ring2 blkRun).ring ⟨0, .tx⟩).isEmpty = false ∧
      ((sending ring2 blkRun).ring ⟨0, .tx⟩).isFull = false) ∧
    ((sending ring3 blkRun).ring ⟨0, .tx⟩).Ok ∧ ((sending ring3 blkRun).ring ⟨0, .tx⟩).isEmpty = false ∧
    ((sending ring3 blkRun).ring ⟨0, .tx⟩).isFull = true :=
  ⟨fits_of rfl rfl rfl rfl, ⟨rfl, rfl⟩, rfl, by decide +kernel,
    ⟨ring_ok.2.1, by decide +kernel, by decide +kernel, rfl, rfl⟩,
    ⟨ring_ok.2.2.2.1, by decide +kernel, by decide +kernel⟩, ring_ok.2.2.2.2, by decide +kernel, by decide +kernel⟩

theorem witness_AvailableQueries :
    (sending ring3 blkBusy).pos = .start ∧ (sending ring3 blkBusy).Ready 0 ∧ (sending ring3 blkBusy).RingsOk 0 ∧
    (sending ring3 blkBusy).cfg.admitted = true ∧
    ((sending ring3 blkBusy).block ((sending ring3 blkBusy).blockOf 0)).mbox.length ≤ (sending ring3 blkBusy).cfg.mboxCount :=
  ⟨rfl, ⟨rfl, rfl⟩, ⟨ring_ok.2.1, ring_ok.2.2.2.2⟩, by decide +kernel, by decide +kernel⟩

theorem witness_PeekReadSteps :
    0 < (receiving ring1 .mask).dev.length ∧ (receiving ring1 .start).pos = .start ∧ (receiving ring1 .start).Ready 0 ∧
    (receiving ring1 .mask).cur = some .mask ∧ (receiving ring1 .peekCheck).cur = some .peekCheck ∧
    (receiving ring1 (.peekRead 0)).cur = some (.peekRead 0) ∧
    ((receiving ring1 (.peekRead 0)).ring ⟨0, .rx⟩).readSlot 0 = .ok wRemote ∧
    (receiving ring1 (.popCheck none)).cur = some (.popCheck none) ∧
    (receiving ring1 (.popAdvance 3 none)).cur = some (.popAdvance 3 none) ∧
    (receiving ring1 (.finishFrame none)).cur = some (.finishFrame none) :=
  ⟨by decide, rfl, ⟨rfl, rfl⟩, rfl, rfl, rfl, by decide +kernel, rfl, rfl, rfl⟩

theorem witness_PeekReadRun :
    (receiving ring2 .start).Fits ∧ (receiving ring2 .start).Ready 0 ∧ ((receiving ring2 .start).ring ⟨0, .rx⟩).Ok ∧
    (receiving ring2 .start).pos = .start ∧ ((receiving ring2 .start).ring ⟨0, .rx⟩).isEmpty = false ∧
    ((receiving (Ring.alloc 4) .start).ring ⟨0, .rx⟩).Ok ∧
    ((receiving (Ring.alloc 4) .start).ring ⟨0, .rx⟩).isEmpty = true :=
  ⟨fits_of rfl rfl rfl rfl, ⟨rfl, rfl⟩, ring_ok.2.2.2.1, rfl, by decide +kernel, ring_ok.2.1, by decide +kernel⟩

theorem witness_GetError :
    (run []).pos = .start ∧ (run []).Ready 0 ∧ ({ run [] with tape := [0x00600030] } : State).tape = [0x00600030] ∧
    (0x00600030 : Word) &&& 0x0000FF88 = 0 := ⟨rfl, ⟨rfl, rfl⟩, rfl, by decide⟩

/-- Device 0 with its RX handler at a position. -/
def inRx (rx : Ring) (p : Pos) : State :=
  { st (devRings rx (Ring.alloc 4)) { blkRun with rxfifo := [Frame.ofWords wD] } none [] with active := [⟨⟨0, .rx⟩, p⟩] }

/-- Device 0 with its TX handler at a position. -/
def inTx (tx : Ring) (p : Pos) : State :=
  { st { devRings (Ring.alloc 4) tx with txIe := true } blkRun none [] with active := [⟨⟨0, .tx⟩, p⟩] }

theorem witness_IrqRxSteps :
    (inRx ring1 .receive).Fits ∧ (inRx ring1 .receive).cfg.hasDevice 0 = true ∧
    (lines [] []).Fits ∧ (lines [] []).handlerPos ⟨0, .rx⟩ = none ∧
    (inRx ring3 .backPressure).handlerPos ⟨0, .rx⟩ = some .backPressure ∧
    (inRx ring1 .receive).handlerPos ⟨0, .rx⟩ = some .receive ∧
    ((inRx ring1 .receive).block ((inRx ring1 .receive).blockOf 0)).rxfifo = [Frame.ofWords wD] ∧
    (inRx ring1 (.pushCheck (Frame.ofWords wD))).handlerPos ⟨0, .rx⟩ = some (.pushCheck (Frame.ofWords wD)) ∧
    (inRx ring1 (.pushFill 1 (Frame.ofWords wD))).handlerPos ⟨0, .rx⟩ = some (.pushFill 1 (Frame.ofWords wD)) ∧
    1 < ((inRx ring1 (.pushFill 1 (Frame.ofWords wD))).ring ⟨0, .rx⟩).cap ∧
    (inRx ring1 (.pushPublish 1)).handlerPos ⟨0, .rx⟩ = some (.pushPublish 1) ∧
    (inRx ring1 .exit).handlerPos ⟨0, .rx⟩ = some .exit :=
  ⟨fits_of rfl rfl rfl rfl, rfl, fits_of rfl rfl rfl rfl, rfl, by decide, by decide, rfl, rfl, rfl, by decide +kernel, rfl, by decide⟩

theorem witness_IrqTxSteps :
    (inTx ring1 .loopTest).Fits ∧ (inTx ring1 .loopTest).cfg.hasDevice 0 = true ∧
    (lines [] []).handlerPos ⟨0, .tx⟩ = none ∧ (inTx ring1 .loopTest).handlerPos ⟨0, .tx⟩ = some .loopTest ∧
    (inTx ring1 .peekCheck).handlerPos ⟨0, .tx⟩ = some .peekCheck ∧
    ((inTx ring1 .peekCheck).ring ⟨0, .tx⟩).isEmpty = false ∧
    (inTx ring1 (.peekRead 0)).handlerPos ⟨0, .tx⟩ = some (.peekRead 0) ∧
    ((inTx ring1 (.peekRead 0)).ring ⟨0, .tx⟩).readSlot 0 = .ok wRemote ∧
    (inTx ring1 (.transmit (Frame.ofWords wA))).handlerPos ⟨0, .tx⟩ = some (.transmit (Frame.ofWords wA)) ∧
    (inTx ring1 (.popCheck none)).handlerPos ⟨0, .tx⟩ = some (.popCheck none) ∧
    (inTx ring1 (.popAdvance 3 none)).handlerPos ⟨0, .tx⟩ = some (.popAdvance 3 none) ∧
    (inTx ring1 .exit).handlerPos ⟨0, .tx⟩ = some .exit :=
  ⟨fits_of rfl rfl rfl rfl, rfl, rfl, by decide, by decide, by decide +kernel, rfl, by decide +kernel, rfl, rfl, rfl, by decide⟩

theorem witness_IrqRxRun :
    (lines [] []).Fits ∧ (lines [] []).cfg.hasDevice 0 = true ∧ ((lines [] []).ring ⟨0, .rx⟩).Ok ∧
    (lines [] []).handlerPos ⟨0, .rx⟩ = none ∧ ((lines [] []).ring ⟨0, .rx⟩).isFull = false ∧
    ((lines [] []).block ((lines [] []).blockOf 0)).rxfifo = [Frame.ofWords wA] ∧
    ((receiving ring3 .start).ring ⟨0, .rx⟩).Ok ∧ ((receiving ring3 .start).ring ⟨0, .rx⟩).isFull = true ∧
    (receiving ring3 .start).Fits ∧ (receiving ring3 .start).handlerPos ⟨0, .rx⟩ = none :=
  ⟨fits_of rfl rfl rfl rfl, rfl, ring_ok.2.1, rfl, by decide +kernel, rfl, ring_ok.2.2.2.2, by decide +kernel,
    fits_of rfl rfl rfl rfl, rfl⟩

/-- The start of the worked example 1.5: three frames queued, one mailbox of three used. -/
theorem witness_IrqTxRun :
    (sending ring3 { blkRun with mbox := [Frame.ofWords wD] }).Fits ∧
    (sending ring3 { blkRun with mbox := [Frame.ofWords wD] }).cfg.hasDevice 0 = true ∧
    ((sending ring3 { blkRun with mbox := [Frame.ofWords wD] }).ring ⟨0, .tx⟩).Ok ∧
    (sending ring3 { blkRun with mbox := [Frame.ofWords wD] }).handlerPos ⟨0, .tx⟩ = none ∧
    ((sending ring3 { blkRun with mbox := [Frame.ofWords wD] }).block 0).hwMode = .normal ∧
    (sending ring3 { blkRun with mbox := [Frame.ofWords wD] }).cfg.hwTxMayFail = false ∧
    ((sending ring3 { blkRun with mbox := [Frame.ofWords wD] }).block 0).mbox.length ≤ 3 :=
  ⟨fits_of rfl rfl rfl rfl, rfl, ring_ok.2.2.2.2, rfl, rfl, rfl, by decide⟩

theorem witness_BusSteps :
    1 < (listening [] []).blk.length ∧ ((listening [] []).block 0).hwMode = .normal ∧
    ((listening [] []).block 1).hwMode ≠ .normal ∧ (Frame.ofWords wA).valid = true ∧
    (listening [] []).accepts 0 (Frame.ofWords wA) = true ∧
    ((listening [Frame.ofWords wA, Frame.ofWords wB] []).block 0).rxfifo.length <
      (listening [Frame.ofWords wA, Frame.ofWords wB] []).cfg.rxFifoDepth ∧
    (listening [] [0x200, 1, 0xA0, 0]).tape =
      [(Frame.ofWords wA).words.fw0, (Frame.ofWords wA).words.fw1, (Frame.ofWords wA).words.fw2,
       (Frame.ofWords wA).words.fw3] := by decide +kernel

/-- `OPEN d0, 8, 0` changes `ST` and the claim; `BEGIN d2, 250000` changes the pin, of device 0 too where it shares it. -/
theorem witness_DeviceStateWriters :
    (∃ t, step { opening 8 0 with cmd := 0x30, sched := [.app] } = .next t ∧
      (decide ((t.device 0).st ≠ ((opening 8 0).device 0).st) &&
       decide ((t.block 0).claim ≠ ((opening 8 0).block 0).claim)) = true) ∧
    ∃ t, step { st DevState.reset BlockState.reset (some .start) [250000] with
        tape := [1], dev := [DevState.reset, DevState.reset, { DevState.reset with st := .configured }], cmd := 0x231
        sched := [.app] } = .next t ∧ (decide (t.trx 2 ≠ .z) &&
      (nextOf (step sharing)).any fun u => decide (u.trx 0 ≠ sharing.trx 0)) = true :=
  ⟨exists_next _ (by decide +kernel), exists_next _ (by decide +kernel)⟩

/-- `READ` masks and re-arms; the RX handler disables; `WRITE` sets `TX_IE` and the TX handler clears it. -/
theorem witness_EnableWriters :
    (∃ t, step { runAt .mask with cmd := 0x38, sched := [.app] } = .next t ∧ (!(t.device 0).rxIe) = true) ∧
    (∃ t, step { inRx ring3 .backPressure with sched := [.resume ⟨0, .rx⟩] } = .next t ∧ (!(t.device 0).rxIe) = true) ∧
    (∃ t, step { st { devRun with rxIe := false } blkRun (some (.finishFrame none)) [] with
      cmd := 0x38, sched := [.app] } = .next t ∧ (t.device 0).rxIe = true) ∧
    (∃ t, step { runAt (.finishBool true) with cmd := 0x34, sched := [.app] } = .next t ∧ (t.device 0).txIe = true) ∧
    ∃ t, step { inTx (Ring.alloc 4) .exit with sched := [.resume ⟨0, .tx⟩] } = .next t ∧ (!(t.device 0).txIe) = true :=
  ⟨exists_next _ (by decide +kernel), exists_next _ (by decide +kernel), exists_next _ (by decide +kernel),
    exists_next _ (by decide +kernel), exists_next _ (by decide +kernel)⟩

theorem witness_BankWriters :
    (∃ t, step { run [0x123, 0x7FF] with cmd := 0x21, sched := [.app] } = .next t ∧
      decide (t.bank 0 0 ≠ (run [0x123, 0x7FF]).bank 0 0) = true) ∧
    (∃ t, step { programmed with cmd := 0x2A, sched := [.app] } = .next t ∧
      decide (t.bank 0 1 ≠ programmed.bank 0 1) = true) ∧
    ∃ t, step { programmed with cmd := 0x00010029, sched := [.app] } = .next t ∧
      decide (t.bank 0 1 ≠ programmed.bank 0 1) = true :=
  ⟨exists_next _ (by decide +kernel), exists_next _ (by decide +kernel), exists_next _ (by decide +kernel)⟩

theorem witness_CommandPortOwner :
    (∃ t, exec (.read 0) (runAt .mask) = .next t ∧ decide (t.cur ≠ none) = true) ∧
    Instr.format (.irqRx 0) = .irq ∧
    ∃ t, exec (Handler.instr ⟨0, .rx⟩) (inRx ring1 .receive) = .next t ∧ decide (t.cur = none) = true :=
  ⟨exists_next _ (by decide +kernel), rfl, exists_next _ (by decide +kernel)⟩

theorem witness_FailuresChangeNothing :
    Instr.format (.devBegin 0) ≠ .irq ∧ (configured 500000 [0]).pos = .start ∧
    (∃ t, exec (.devBegin 0) (configured 500000 [0]) = .next t ∧
      (decide (t.cur = none) && decide (t.code ≠ .ok)) = true) ∧
    ∃ t, exec (.fltMask32Std 0 14) (run [0x123, 0x7FF]) = .next t ∧
      (decide (t.cur = none) && decide (t.code ≠ .ok)) = true :=
  ⟨by decide, rfl, exists_next _ (by decide +kernel), exists_next _ (by decide +kernel)⟩

/-- A port fault has stopped `APP`; a model fault has stopped the RX engine of device 0. -/
def faulted : State :=
  { lines [] [.complete 0] with
    faults := [⟨.port 0x40006004 32, .app⟩, ⟨.internal .hwReceive, .engine ⟨0, .rx⟩⟩] }

theorem witness_FaultsAreForever :
    (∃ t, step faulted = .next t ∧ decide (t.cur = none) = true) ∧ faulted.faults ≠ [] ∧ faulted.stopped .app = true ∧
    faulted.stopped (.engine ⟨0, .rx⟩) = true :=
  ⟨exists_next _ (by decide +kernel), by decide, by decide, by decide⟩

theorem witness_BlockIsolation :
    (run [0x123, 0x7FF]).Fits ∧ Instr.fltMask32Std 0 0 ≠ .btSolve ∧
    Instr.deviceOf (.fltMask32Std 0 0) < (run [0x123, 0x7FF]).cfg.numDev ∧ 2 < (run [0x123, 0x7FF]).cfg.numDev ∧
    (run [0x123, 0x7FF]).blockOf 2 ≠ (run [0x123, 0x7FF]).blockOf 0 ∧
    (run [0x123, 0x7FF]).ownsBank 2 27 = true ∧
    ∃ t, exec (.fltMask32Std 0 0) (run [0x123, 0x7FF]) = .next t ∧ decide (t.code = .ok) = true :=
  ⟨fits_of rfl rfl rfl rfl, by decide, by decide, by decide, by decide, by decide, exists_next _ (by decide +kernel)⟩

/-- The clause about a pin: devices 0 and 2, of different blocks, share it. -/
theorem witness_BlockIsolation_pin :
    sharing.Fits ∧ sharing.blockOf 0 ≠ sharing.blockOf 2 ∧
    ∃ t, exec (.devBegin 2) sharing = .next t ∧ decide (t.trx 0 ≠ sharing.trx 0) = true :=
  ⟨⟨by decide +kernel, rfl, rfl, rfl, by decide⟩, by decide, exists_next _ (by decide +kernel)⟩

theorem witness_ResetValues : 2 < Config.reference.numDev ∧ 1 < Config.reference.numBlocks ∧ 0 < Config.reference.numFarrays := by
  decide

theorem witness_ResetMeetsInvariant : tiny.admitted = true := by decide +kernel

/-- Device 0 RUNNING and `READ d0` after its masking step: the receive ring holds two frames, the transmit ring one, a
frame waits in the FIFO, pin 5 is driven. `APP` is chosen next. -/
def reading : State :=
  { st { devRings ring2 ring1 with rxIe := false, txIe := true } { blkRun with rxfifo := [Frame.ofWords wC] }
      (some .peekCheck) [] with cmd := 0x38, sched := [.app], pins := [(5, false)] }

theorem reading_bank (a k : Nat) : reading.bank a k = Bank.reset := bank_of (n := 28) rfl a k

theorem reading_inv : reading.Inv where
  admitted := by decide +kernel
  sized := ⟨rfl, rfl, rfl, by decide⟩
  registry := by unfold State.RegistryOk; decide +kernel
  locked := by unfold State.Locked; decide +kernel
  devices := by
    intro d hd
    have h : d = 0 ∨ d = 1 ∨ d = 2 := by
      have : d < 3 := hd
      omega
    rcases h with rfl | rfl | rfl
    · exact ⟨ring_ok.2.2.2.1, ring_ok.2.2.1, by decide, by decide +kernel, by decide⟩
    · exact ⟨ring_ok.1, ring_ok.1, by decide, by decide, by decide⟩
    · exact ⟨ring_ok.1, ring_ok.1, by decide, by decide, by decide⟩
  blocks := by unfold State.BlocksOk State.Idle; decide +kernel
  banks := fun d _ _ k _ _ => reading_bank _ k
  command := by
    have h : decode reading.cmd = .ok (.read 0) := by decide +kernel
    have hc : reading.cur = some .peekCheck := rfl
    simp only [State.CommandOk, hc, h]
    exact ⟨rfl, by decide, rfl, trivial⟩
  handlers := fun _ h => absurd h List.not_mem_nil
  nesting := by unfold State.NestingOk; decide
  mask := by unfold State.MaskOk; decide +kernel
  pins := by unfold State.PinsOk; decide +kernel
  faults := fun _ h => absurd h List.not_mem_nil

theorem reading_steps : ∃ t, step reading = .next t ∧ decide (t.cur = some (.peekRead 0)) = true :=
  exists_next _ (by decide +kernel)

theorem witness_StepKeepsStorage :
    reading.Sized ∧ reading.Locked ∧ (∀ ref, Memory.wf (reading.ring ref).slot) ∧
    Table.wf reading.pins ∧ ∃ t, step reading = .next t := by
  refine ⟨reading_inv.sized, reading_inv.locked, ?_, reading_inv.pins.1, reading_steps.imp fun _ h => h.1⟩
  rintro ⟨d, _ | _⟩ <;> rcases d with _ | _ | _ | d <;>
    first | exact ring_ok.2.2.2.1.2.2.2.1 | exact ring_ok.2.2.1.2.2.2.1 | exact List.Pairwise.nil

theorem witness_StepKeepsRegistry :
    reading.Fits ∧ reading.RegistryOk ∧ (∃ t, step reading = .next t) ∧ 0 < reading.cfg.numDev ∧
    (reading.device 0).st ≠ .uninit :=
  ⟨⟨reading_inv.admitted, reading_inv.sized⟩, reading_inv.registry, reading_steps.imp fun _ h => h.1, by decide,
    by decide⟩

/-- The RX handler of device 0 has preempted its TX handler. -/
def nested : State := lines [⟨⟨0, .tx⟩, .loopTest⟩, ⟨⟨0, .rx⟩, .receive⟩] [.resume ⟨0, .rx⟩]

theorem witness_StepKeepsNesting :
    nested.NestingOk ∧ (∃ t, step nested = .next t ∧ decide (t.cur = none) = true) ∧
    nested.enabled (.resume ⟨0, .rx⟩) = true :=
  ⟨by unfold State.NestingOk; decide +kernel, exists_next _ (by decide +kernel), by decide +kernel⟩

theorem witness_StepKeepsInvariant : reading.Inv ∧ ∃ t, step reading = .next t :=
  ⟨reading_inv, reading_steps.imp fun _ h => h.1⟩

theorem witness_InvariantConsequences :
    reading.Inv ∧ decode reading.cmd = .ok (.read 0) ∧ reading.cur = some .peekCheck ∧ Pos.peekCheck ≠ .start ∧
    Pos.peekCheck ≠ .mask := ⟨reading_inv, by decide +kernel, rfl, by decide, by decide⟩

/-! ## Fairness (45_irq.md R251(d)) -/

/-- After reset, with an access to come, `APP` is the only agent enabled. -/
theorem test_appAlone_reset : { State.reset with host := [.poll] }.AppAlone := by
  refine ⟨by decide, fun h => ⟨?_, rfl⟩, fun b => ?_⟩
  · have hl : { State.reset with host := [.poll] }.line h = false := by
      obtain ⟨_ | _ | _ | d, _ | _⟩ := h <;> rfl
    simp [State.enabled, State.entryEnabled, State.pending, hl]
  · obtain _ | _ | b := b
    · decide
    · decide
    · exact Bool.and_eq_false_imp.2 fun _ => rfl

/-- With the controller in NORMAL and the RX interrupt masked, `BUS[0]` may step, so R251(d) guarantees `APP` nothing. -/
theorem test_not_appAlone_arrivals :
    ¬ { st { devRun with rxIe := false } blkRun none [] with host := [.poll] }.AppAlone := fun h =>
  absurd (h.2.2 0) (by decide)

end Tests
end Sys2Proof
end

section
/-!
SUPPORT. Which configurations are admitted (spec/00_scope.md R6 to R8): each check of `Config.admitted` in the words of
its rule.
-/

namespace Sys2Proof

/-- A check of every descriptor is a check of `DESC[d]` for every device id. -/
theorem Config.all_desc_iff (c : Config) (P : Desc → Bool) :
    c.desc.all P = true ↔ ∀ d < c.numDev, P (c.descOf d) = true := by
  rw [List.all_eq_true, List.forall_mem_iff_forall_getElem]
  refine forall₂_congr fun d hd => ?_
  rw [Config.descOf, List.getD_eq_getElem _ _ hd]

/-- A check of every filter array is a check of its two parameters for every array index. -/
theorem Config.all_farrays_iff (c : Config) (P : ArrayParams → Bool) :
    c.farrays.all P = true ↔ ∀ a < c.numFarrays, P ⟨c.numBanks a, c.split a⟩ = true := by
  rw [List.all_eq_true, List.forall_mem_iff_forall_getElem]
  refine forall₂_congr fun a ha => ?_
  rw [Config.numBanks, Config.split, List.getD_eq_getElem _ _ ha]

/-- The ranges of R6 and R7, and one core (R67). -/
theorem Config.inRange_iff (c : Config) : c.inRange = true ↔
    1 ≤ c.numDev ∧ c.numDev ≤ 16 ∧ 1 ≤ c.numBlocks ∧ c.numBlocks ≤ 3 ∧ 1 ≤ c.numFarrays ∧ c.numFarrays ≤ 3 ∧
    (∀ a < c.numFarrays, 1 ≤ c.numBanks a ∧ c.numBanks a ≤ 32 ∧ c.split a ≤ c.numBanks a) ∧
    1 ≤ c.mboxCount ∧ c.mboxCount ≤ 8 ∧ 1 ≤ c.rxFifoDepth ∧ c.rxFifoDepth ≤ 8 ∧ c.canqBase % 0x100 = 0 ∧
    c.multicore = false ∧
    ∀ d < c.numDev, (c.descOf d).block < c.numBlocks ∧ (c.descOf d).farray < c.numFarrays ∧
      1 ≤ (c.descOf d).pclk ∧ (c.descOf d).pclk < 2 ^ 32 := by
  simp only [Config.inRange, Bool.and_eq_true, decide_eq_true_eq, Bool.not_eq_true', Config.all_desc_iff,
    Config.all_farrays_iff, and_assoc]

/-- R8(c), (d) for one descriptor. -/
theorem Config.rangeOk_iff (c : Config) (p : Desc) : c.rangeOk p = true ↔
    (p.firstBank ≤ p.maxBank ∧ p.maxBank < c.numBanks p.farray) ∧
    (p.role = .standalone → p.firstBank = 0 ∧ p.maxBank + 1 = c.numBanks p.farray) := by
  simp only [Config.rangeOk, Bool.and_eq_true, Bool.or_eq_true, decide_eq_true_eq, imp_iff_not_or, ne_eq]

/-- Two ranges of banks, neither of them empty, share no bank exactly when one ends before the other begins. -/
theorem Desc.ranges_disjoint_iff {p q : Desc} (hp : p.firstBank ≤ p.maxBank) (hq : q.firstBank ≤ q.maxBank) :
    (p.maxBank < q.firstBank ∨ q.maxBank < p.firstBank) ↔
    ∀ k, ¬ (p.firstBank ≤ k ∧ k ≤ p.maxBank ∧ q.firstBank ≤ k ∧ k ≤ q.maxBank) := by
  refine ⟨fun h k => by omega, fun h => ?_⟩
  have := h (max p.firstBank q.firstBank)
  omega

/-- R8(a), (b), (e), (f) for an ordered pair of descriptors whose ranges are not empty. -/
theorem Config.pairOk_iff (c : Config) {p q : Desc} (hp : p.firstBank ≤ p.maxBank) (hq : q.firstBank ≤ q.maxBank) :
    c.pairOk p q = true ↔
    (p.block ≠ q.block → p.farray = q.farray →
      ∀ k, ¬ (p.firstBank ≤ k ∧ k ≤ p.maxBank ∧ q.firstBank ≤ k ∧ k ≤ q.maxBank)) ∧
    (p.role = .primary → q.role = .secondary → p.farray = q.farray →
      p.firstBank = 0 ∧ p.maxBank + 1 = c.split p.farray ∧ q.firstBank = c.split p.farray ∧
      q.maxBank + 1 = c.numBanks p.farray) ∧
    (p.block = q.block → p.farray = q.farray ∧ p.role = q.role ∧ p.firstBank = q.firstBank ∧ p.maxBank = q.maxBank) ∧
    (p.block < q.block →
      p.prioRx < q.prioRx ∧ p.prioRx < q.prioTx ∧ p.prioTx < q.prioRx ∧ p.prioTx < q.prioTx) := by
  simp only [← Desc.ranges_disjoint_iff hp hq, Config.pairOk, Bool.and_eq_true, Bool.or_eq_true, Bool.not_eq_true',
    decide_eq_true_eq, decide_eq_false_iff_not, imp_iff_not_or, ne_eq, not_not, and_assoc, or_assoc]

/-- Admission: the ranges, and R8 for every device and every ordered pair of devices. -/
theorem Config.admitted_iff (c : Config) : c.admitted = true ↔
    c.inRange = true ∧ (∀ d < c.numDev, c.rangeOk (c.descOf d) = true) ∧
    ∀ d < c.numDev, ∀ e < c.numDev, c.pairOk (c.descOf d) (c.descOf e) = true := by
  simp only [Config.admitted, Bool.and_eq_true, Config.all_desc_iff, and_assoc]

/-- R8(a) in an admitted configuration: a bank that one device owns is owned by no device of another block on the same
array. -/
theorem Config.owned_disjoint {c : Config} (h : c.admitted = true) {d e : Nat} (hd : d < c.numDev) (he : e < c.numDev)
    (hb : (c.descOf d).block ≠ (c.descOf e).block) (ha : (c.descOf d).farray = (c.descOf e).farray) (k : Nat) :
    ¬ ((c.descOf d).firstBank ≤ k ∧ k ≤ (c.descOf d).maxBank ∧
       (c.descOf e).firstBank ≤ k ∧ k ≤ (c.descOf e).maxBank) := by
  obtain ⟨_, own, pairs⟩ := c.admitted_iff.1 h
  obtain ⟨⟨hdr, _⟩, _⟩ := (c.rangeOk_iff _).1 (own d hd)
  obtain ⟨⟨her, _⟩, _⟩ := (c.rangeOk_iff _).1 (own e he)
  obtain ⟨disjoint, _⟩ := (c.pairOk_iff hdr her).1 (pairs d hd e he)
  exact disjoint hb ha k

namespace Machine

/-- A state whose configuration is not admitted has no step (R268). -/
theorem step_of_not_admitted {s : State} (h : s.cfg.admitted = false) : step s = .refused .badConfiguration :=
  if_neg (by simp [h])

end Machine

open Machine

/-- Settles O9: each check of `Config.admitted` is its rule, clause by clause; that R8(a) asks for disjoint ranges rests on
R8(c), by which no range is empty. -/
theorem admittedConfigurations : Obligations.AdmittedConfigurations := by
  refine ⟨fun c => ?_, fun s => step_of_not_admitted⟩
  rw [Config.admitted_iff, Config.inRange_iff]
  constructor
  · rintro ⟨ranges, own, pairs⟩
    have own := fun d hd => (c.rangeOk_iff _).1 (own d hd)
    have pairs := fun d hd e he => (c.pairOk_iff (own d hd).1.1 (own e he).1.1).1 (pairs d hd e he)
    exact ⟨ranges,
      fun d hd e he => have ⟨disjoint, _, _, _⟩ := pairs d hd e he; disjoint,
      fun d hd e he => have ⟨_, split, _, _⟩ := pairs d hd e he; split,
      fun d hd => (own d hd).2, fun d hd => (own d hd).1,
      fun d hd e he => have ⟨_, _, sameBlock, _⟩ := pairs d hd e he; sameBlock,
      fun d hd e he => have ⟨_, _, _, bands⟩ := pairs d hd e he; bands⟩
  · rintro ⟨ranges, disjoint, split, standalone, own, sameBlock, bands⟩
    exact ⟨ranges, fun d hd => (c.rangeOk_iff _).2 ⟨own d hd, standalone d hd⟩,
      fun d hd e he => (c.pairOk_iff (own d hd).1 (own e he).1).2
        ⟨disjoint d hd e he, split d hd e he, sameBlock d hd e he, bands d hd e he⟩⟩

end Sys2Proof
end

section
/-!
SUPPORT. What an instruction can change at most (spec/00_scope.md R8, spec/43_filter.md R150, spec/70_reset_and_hazards.md
R281): of the devices, blocks and banks only those of the device it names, and of the pins only that device's, in `BEGIN`
and `CLOSE`.
-/

namespace Sys2Proof
namespace Machine

/-- Of the devices, blocks, banks and pins, `t` differs from `s` at most in device `d`, its block, its owned banks and the
level on `pin`. -/
structure State.ChangesOnly (s t : State) (d : Nat) (pin : Option Nat) : Prop where
  cfg : t.cfg = s.cfg
  device : ∀ e, e ≠ d → t.device e = s.device e
  block : ∀ b, b ≠ s.blockOf d → t.block b = s.block b
  bank : ∀ a k, a ≠ s.farrayOf d ∨ s.ownsBank d k = false → t.bank a k = s.bank a k
  pinLevel : ∀ p, pin ≠ some p → t.pinLevel p = s.pinLevel p

/-- Whatever next state the result answers with changes only what is device `d`'s, and `pin`. -/
def State.Allows (s : State) (d : Nat) (pin : Option Nat) (r : Result) : Prop :=
  ∀ t, r = .next t → s.ChangesOnly t d pin

/-- The pin an instruction may drive: in `BEGIN` and `CLOSE` that of its device (R204). -/
def State.drivenPin (s : State) : Instr → Option Nat
  | .devBegin d => (s.desc d).trxPin
  | .devClose d => (s.desc d).trxPin
  | _ => none

/-! ## The arrays -/

/-- Clearing a range leaves every bank outside it alone. -/
theorem clearRange_getD_of_not_mem (lo hi : Nat) (l : List Bank) (i k : Nat) (h : ¬ (lo ≤ i + k ∧ i + k ≤ hi)) :
    (clearRange lo hi i l).getD k Bank.reset = l.getD k Bank.reset := by
  induction l generalizing i k with
  | nil => rfl
  | cons x l ih =>
    cases k with
    | zero => simpa [clearRange] using fun h₁ h₂ => absurd ⟨h₁, h₂⟩ h
    | succ k => simpa [clearRange] using ih (i + 1) k (by omega)

/-- Writing an array changes only the banks that differ in it. -/
theorem bank_setArray (s : State) (a : Nat) (x : FilterArray) {a' k : Nat}
    (h : a' = a → x.bank k = s.bank a k) : (s.setArray a x).bank a' k = s.bank a' k := by
  by_cases ha : a = a'
  · subst ha
    by_cases hl : a < s.flt.length
    · rw [State.bank, array_setArray_self _ _ hl, h rfl]
    · rw [State.setArray, List.set_eq_of_length_le (Nat.le_of_not_lt hl)]
  · rw [State.bank, array_setArray_ne _ _ ha, State.bank]

@[simp] theorem bank_setWp (s : State) (a : Nat) (v : Bool) (a' k : Nat) : (s.setWp a v).bank a' k = s.bank a' k :=
  bank_setArray s a _ fun _ => rfl

theorem bank_setBank_ne (s : State) {a k a' k' : Nat} (x : Bank) (h : a' ≠ a ∨ k' ≠ k) :
    (s.setBank a k x).bank a' k' = s.bank a' k' := by
  refine bank_setArray s a _ fun ha => ?_
  have hk : k ≠ k' := fun hk => h.elim (absurd ha) (absurd hk.symm)
  simp [FilterArray.bank, State.bank, List.getD_eq_getElem?_getD, List.getElem?_set_ne hk]

/-- Toggling `FA` of a bank leaves every other bank alone (R162, R163). -/
theorem bank_setActive_ne (s : State) {a k a' k' : Nat} (v : Bool) (h : a' ≠ a ∨ k' ≠ k) :
    (s.setActive a k v).bank a' k' = s.bank a' k' := by
  rw [State.setActive, bank_setWp, bank_setBank_ne _ _ h, bank_setWp]

/-- `clear_owned(d)` leaves every bank alone that `d` does not own (R166). -/
theorem bank_clearOwned_of_not_owned (s : State) {d a k : Nat} (h : a ≠ s.farrayOf d ∨ s.ownsBank d k = false) :
    (s.clearOwned d).bank a k = s.bank a k := by
  rw [State.clearOwned, bank_setWp]
  refine (bank_setArray _ _ _ fun ha => ?_).trans (bank_setWp ..)
  have hk : ¬ ((s.desc d).firstBank ≤ 0 + k ∧ 0 + k ≤ (s.desc d).maxBank) := by
    simpa [State.ownsBank] using h.resolve_left (not_not.2 ha)
  exact clearRange_getD_of_not_mem _ _ _ _ _ hk

/-- An owned bank and one that is not owned are two banks. -/
theorem ne_of_not_owned {s : State} {d k a k' : Nat} (hk : s.ownsBank d k = true)
    (h : a ≠ s.farrayOf d ∨ s.ownsBank d k' = false) : a ≠ s.farrayOf d ∨ k' ≠ k :=
  h.imp_right fun hk' e => by simp [e, hk] at hk'

/-! ## Operations, each after a change that is allowed -/

namespace State.ChangesOnly

variable {s t u : State} {d : Nat} {pin : Option Nat}

theorem refl : s.ChangesOnly s d pin := ⟨rfl, fun _ _ => rfl, fun _ _ => rfl, fun _ _ _ => rfl, fun _ _ => rfl⟩

theorem trans (h : s.ChangesOnly t d pin) (g : t.ChangesOnly u d pin) : s.ChangesOnly u d pin where
  cfg := g.cfg.trans h.cfg
  device e he := (g.device e he).trans (h.device e he)
  block b hb := (g.block b (by rwa [blockOf_eq_of_cfg h.cfg])).trans (h.block b hb)
  bank a k hk := (g.bank a k (by rwa [farrayOf_eq_of_cfg h.cfg, ownsBank_eq_of_cfg h.cfg])).trans (h.bank a k hk)
  pinLevel p hp := (g.pinLevel p hp).trans (h.pinLevel p hp)

protected theorem ite {c : Prop} [Decidable c] (h : s.ChangesOnly t d pin) (g : s.ChangesOnly u d pin) :
    s.ChangesOnly (if c then t else u) d pin := by
  split
  · exact h
  · exact g

/-- Only the port, the agents, the faults and the draws differ. -/
theorem of_tables (cfg : t.cfg = s.cfg) (dev : t.dev = s.dev) (blk : t.blk = s.blk) (flt : t.flt = s.flt)
    (pins : t.pins = s.pins) : s.ChangesOnly t d pin where
  cfg := cfg
  device e _ := device_eq_of_dev dev e
  block b _ := block_eq_of_blk blk b
  bank a k _ := bank_eq_of_flt flt a k
  pinLevel p _ := by rw [State.pinLevel, State.pinLevel, pins]

theorem finish (h : s.ChangesOnly t d pin) (c : StatusCode) (l : List Word) : s.ChangesOnly (t.finish c l) d pin :=
  h.trans (of_tables rfl rfl rfl rfl rfl)

/-- The command ends with a status and its results, and no other effect. -/
theorem ended {c : StatusCode} {l : List Word} : s.ChangesOnly (s.finish c l) d pin := refl.finish c l

theorem goto (h : s.ChangesOnly t d pin) (a : Agent) (p : Pos) : s.ChangesOnly (t.goto a p) d pin :=
  h.trans (of_tables (by simp) (by simp) (by simp) (by simp) (by simp))

theorem raise (h : s.ChangesOnly t d pin) (a : Agent) (f : ModelFault) : s.ChangesOnly (t.raise a f) d pin :=
  h.trans (of_tables (by simp) (by simp) (by simp) (by simp) (by simp))

theorem enterHandler (h : s.ChangesOnly t d pin) (g : Handler) (p : Pos) : s.ChangesOnly (t.enterHandler g p) d pin :=
  h.trans (of_tables rfl rfl rfl rfl rfl)

theorem exitHandler (h : s.ChangesOnly t d pin) (g : Handler) : s.ChangesOnly (t.exitHandler g) d pin :=
  h.trans (of_tables rfl rfl rfl rfl rfl)

theorem afterDraw (h : s.ChangesOnly t d pin) : s.ChangesOnly t.afterDraw d pin :=
  h.trans (of_tables rfl rfl rfl rfl rfl)

theorem setDevice (h : s.ChangesOnly t d pin) (x : DevState) : s.ChangesOnly (t.setDevice d x) d pin :=
  h.trans ⟨rfl, fun _ he => device_setDevice_ne _ _ (Ne.symm he), fun _ _ => rfl, fun _ _ _ => rfl, fun _ _ => rfl⟩

theorem setRing (h : s.ChangesOnly t d pin) (sel : RingSel) (r : Ring) : s.ChangesOnly (t.setRing ⟨d, sel⟩ r) d pin :=
  h.setDevice _

theorem setRxIe (h : s.ChangesOnly t d pin) (v : Bool) : s.ChangesOnly (t.setRxIe d v) d pin := h.setDevice _

theorem setTxIe (h : s.ChangesOnly t d pin) (v : Bool) : s.ChangesOnly (t.setTxIe d v) d pin := h.setDevice _

theorem setBlock (h : s.ChangesOnly t d pin) (x : BlockState) : s.ChangesOnly (t.setBlock (s.blockOf d) x) d pin := by
  refine h.trans ⟨rfl, fun _ _ => rfl, fun b hb => block_setBlock_ne _ _ (Ne.symm ?_), fun _ _ _ => rfl, fun _ _ => rfl⟩
  rwa [← blockOf_eq_of_cfg h.cfg]

theorem loadMailbox (h : s.ChangesOnly t d pin) (f : Frame) : s.ChangesOnly (t.loadMailbox (s.blockOf d) f) d pin :=
  h.setBlock _

theorem clearOwned (h : s.ChangesOnly t d pin) : s.ChangesOnly (t.clearOwned d) d pin :=
  h.trans ⟨rfl, fun _ _ => rfl, fun _ _ => rfl, fun _ _ hk => bank_clearOwned_of_not_owned t hk, fun _ _ => rfl⟩

/-- Only `BEGIN` and `CLOSE` drive a pin, that of their device. -/
theorem driveTrx (h : s.ChangesOnly t d (s.desc d).trxPin) (v : Bool) :
    s.ChangesOnly (t.driveTrx d v) d (s.desc d).trxPin := by
  refine h.trans ⟨by simp, fun e _ => device_eq_of_dev (by simp) e, fun b _ => block_eq_of_blk (by simp) b,
    fun a k _ => bank_eq_of_flt (by simp) a k, fun p hp => ?_⟩
  rw [← desc_eq_of_cfg h.cfg] at hp
  rw [(driveTrx_pinDriven t d v).1 p, if_neg hp]

end State.ChangesOnly

/-! ## The shared steps of the meanings -/

section Steps

open State.ChangesOnly (refl ended)

variable {s t : State} {d : Nat} {pin : Option Nat}

theorem State.Allows.next (h : s.ChangesOnly t d pin) : s.Allows d pin (.next t) := fun _ e => by cases e; exact h

theorem State.Allows.fault (r : Fault) : s.Allows d pin (.fault r) := fun _ e => by cases e

theorem single_allows (h : s.ChangesOnly t d pin) : s.Allows d pin (single s t) :=
  fun _ e => (single_eq_next.1 e).2 ▸ h

theorem onDevice_changesOnly (h : s.ChangesOnly t d pin) : s.ChangesOnly (onDevice d s t) d pin := .ite h ended

theorem whenRunning_changesOnly (h : s.ChangesOnly t d pin) : s.ChangesOnly (whenRunning d s t) d pin :=
  onDevice_changesOnly (.ite h ended)

theorem pre_changesOnly {k : Nat} (h : s.ownsBank d k = true → s.ChangesOnly t d pin) :
    s.ChangesOnly (pre d k s t) d pin := by
  rcases pre_cases d k s t with ⟨_, _, hk, e⟩ | ⟨c, _, e⟩ <;> rw [e]
  · exact h hk
  · exact ended

theorem configure_changesOnly {k : Nat} (hk : s.ownsBank d k = true) (p m : Word) (md sc en : Bool) :
    s.ChangesOnly (s.configure (s.farrayOf d) k p m md sc en) d pin :=
  ⟨rfl, fun _ _ => rfl, fun _ _ => rfl,
    fun _ _ h => bank_configure_ne s _ _ _ _ _ ((ne_of_not_owned hk h).imp Ne.symm Ne.symm), fun _ _ => rfl⟩

theorem setActive_changesOnly {k : Nat} (hk : s.ownsBank d k = true) (v : Bool) :
    s.ChangesOnly (s.setActive (s.farrayOf d) k v) d pin :=
  ⟨rfl, fun _ _ => rfl, fun _ _ => rfl, fun _ _ h => bank_setActive_ne s v (ne_of_not_owned hk h), fun _ _ => rfl⟩

theorem programBank_changesOnly {k : Nat} (hk : s.ownsBank d k = true) {p m : Word} {md sc en : Bool} :
    s.ChangesOnly (programBank d k p m md sc en s) d pin :=
  (configure_changesOnly hk p m md sc en).finish _ _

theorem pushCheckStep_changesOnly {a : Agent} {ref : RingRef} {f : Frame} {p : Pos} :
    s.ChangesOnly (pushCheckStep a ref f p s) d pin := .ite (refl.goto _ _) (refl.goto _ _)

theorem pushFillStep_changesOnly {a : Agent} {sel : RingSel} {h : Nat} {f : Frame} :
    s.ChangesOnly (pushFillStep a ⟨d, sel⟩ h f s) d pin := by
  rcases pushFillStep_cases a ⟨d, sel⟩ h f s with ⟨r, _, e⟩ | e <;> rw [e]
  · exact (refl.setRing sel r).goto _ _
  · exact refl.raise _ _

theorem pushPublishStep_changesOnly {a : Agent} {sel : RingSel} {h : Nat} {p : Pos} :
    s.ChangesOnly (pushPublishStep a ⟨d, sel⟩ h p s) d pin := (refl.setRing _ _).goto _ _

theorem peekCheckStep_changesOnly {a : Agent} {ref : RingRef} {p : Pos} :
    s.ChangesOnly (peekCheckStep a ref p s) d pin := .ite (refl.goto _ _) (refl.goto _ _)

theorem peekReadStep_changesOnly {a : Agent} {ref : RingRef} {i : Nat} {after : Frame → Pos} :
    s.ChangesOnly (peekReadStep a ref i after s) d pin := by
  rcases peekReadStep_cases a ref i after s with ⟨w, _, e⟩ | ⟨f, e⟩ <;> rw [e]
  · exact refl.goto _ _
  · exact refl.raise _ _

theorem popCheckStep_changesOnly {a : Agent} {ref : RingRef} {x : Option Frame} {p : Pos} :
    s.ChangesOnly (popCheckStep a ref x p s) d pin := .ite (refl.goto _ _) (refl.goto _ _)

theorem popAdvanceStep_changesOnly {a : Agent} {sel : RingSel} {i : Nat} {p : Pos} :
    s.ChangesOnly (popAdvanceStep a ⟨d, sel⟩ i p s) d pin := (refl.setRing _ _).goto _ _

theorem finishRead_changesOnly {x : Option Frame} : s.ChangesOnly (finishRead d x s) d pin := by
  cases x <;> exact (refl.setRxIe _).finish _ _

theorem hwTransmit_changesOnly {f : Frame} {ok : Bool} (e : s.hwTransmit (s.blockOf d) f = (ok, t)) :
    s.ChangesOnly t d pin := by
  rcases hwTransmit_cases s (s.blockOf d) f with ⟨_, _, h⟩ | ⟨_, _, _, h⟩ | ⟨_, _, _, h⟩ | ⟨_, h⟩ <;> cases h ▸ e
  · exact refl.loadMailbox f
  · exact refl.afterDraw.loadMailbox f
  · exact refl.afterDraw
  · exact refl

theorem hwInit_changesOnly {base remap : Nat} {w : Word} {ok : Bool}
    (e : s.hwInit (s.blockOf d) base remap w = (ok, t)) : s.ChangesOnly t d pin := by
  cases h : drawnBool s.nextDraw
  · cases hwInit_of_false _ base remap w h ▸ e
    exact refl.afterDraw.setBlock _
  · cases hwInit_of_true _ base remap w h ▸ e
    exact refl.afterDraw.setBlock _

theorem hwSetMode_changesOnly {u : State} (h : s.ChangesOnly t d pin) {m : HwMode} {ok : Bool}
    (e : t.hwSetMode (s.blockOf d) m = (ok, u)) : s.ChangesOnly u d pin := by
  cases hd : drawnBool t.nextDraw
  · cases hwSetMode_of_false _ m hd ▸ e
    exact h.afterDraw.afterDraw.setBlock _
  · cases hwSetMode_of_true _ m hd ▸ e
    exact h.afterDraw.setBlock _

theorem loseTiming_changesOnly (h : s.ChangesOnly t d pin) : s.ChangesOnly (t.loseTiming d) d pin :=
  h.afterDraw.afterDraw.setDevice _

/-- The set-up calls of `BEGIN` have no state in CANQ (R250). -/
theorem beginSetup_eq (s : State) (d : Nat) : s.beginSetup d = s := ite_self s

end Steps
end Machine
end Sys2Proof
end

section
/-!
SUPPORT. Each instruction changes only what is its device's: one lemma per meaning, in the order of the opcode table; and what
follows for a device of another block (spec/00_scope.md R8, spec/43_filter.md R169).
-/

namespace Sys2Proof
namespace Machine

open State.ChangesOnly (refl ended)

variable {d k : Nat} {ring : RingSel} {s : State} {pin : Option Nat}

/-! ## Ring commands -/

theorem execRbIsEmpty_allows : s.Allows d pin (execRbIsEmpty d ring s) := by
  unfold execRbIsEmpty
  split
  · exact .next (whenRunning_changesOnly (refl.goto _ _))
  · exact .next ended
  · exact .fault _

theorem execRbIsFull_allows : s.Allows d pin (execRbIsFull d ring s) := by
  unfold execRbIsFull
  split
  · exact .next (whenRunning_changesOnly (refl.goto _ _))
  · exact .next ended
  · exact .fault _

theorem execRbCount_allows : s.Allows d pin (execRbCount d ring s) := by
  unfold execRbCount
  split
  · exact .next (whenRunning_changesOnly (refl.goto _ _))
  · exact .next ended
  · exact .fault _

theorem execRbPush_allows : s.Allows d pin (execRbPush d ring s) := by
  unfold execRbPush
  split
  · exact .next (whenRunning_changesOnly (.ite ended (.ite (refl.goto _ _) ended)))
  · exact .next pushCheckStep_changesOnly
  · exact .next pushFillStep_changesOnly
  · exact .next pushPublishStep_changesOnly
  · exact .next ended
  · exact .fault _

theorem execRbPeek_allows : s.Allows d pin (execRbPeek d ring s) := by
  unfold execRbPeek
  split
  · exact .next (whenRunning_changesOnly (.ite ended (refl.goto _ _)))
  · exact .next peekCheckStep_changesOnly
  · exact .next peekReadStep_changesOnly
  · exact .next ended
  · exact .next ended
  · exact .fault _

theorem execRbPop_allows : s.Allows d pin (execRbPop d ring s) := by
  unfold execRbPop
  split
  · exact .next (whenRunning_changesOnly (.ite ended (refl.goto _ _)))
  · exact .next popCheckStep_changesOnly
  · exact .next popAdvanceStep_changesOnly
  · exact .next ended
  · exact .fault _

/-! ## `BT_SOLVE` and the filter commands -/

theorem execBtSolve_allows : s.Allows d pin (execBtSolve s) := by
  refine single_allows ?_
  split <;> exact ended

theorem execFltConfigure_allows : s.Allows d pin (execFltConfigure d k s) :=
  single_allows <| pre_changesOnly fun hk => .ite ended (programBank_changesOnly hk)

theorem execFltMask32Std_allows : s.Allows d pin (execFltMask32Std d k s) :=
  single_allows <| pre_changesOnly fun hk => .ite (programBank_changesOnly hk) ended

theorem execFltMask32Ext_allows : s.Allows d pin (execFltMask32Ext d k s) :=
  single_allows <| pre_changesOnly fun hk => .ite (programBank_changesOnly hk) ended

theorem execFltList32Std_allows : s.Allows d pin (execFltList32Std d k s) :=
  single_allows <| pre_changesOnly fun hk => .ite (.ite ended (programBank_changesOnly hk)) ended

theorem execFltList32Ext_allows : s.Allows d pin (execFltList32Ext d k s) :=
  single_allows <| pre_changesOnly fun hk => .ite (.ite ended (programBank_changesOnly hk)) ended

theorem execFltMask16_allows : s.Allows d pin (execFltMask16 d k s) :=
  single_allows <| pre_changesOnly fun hk => .ite (programBank_changesOnly hk) ended

theorem execFltList16_allows : s.Allows d pin (execFltList16 d k s) :=
  single_allows <| pre_changesOnly fun hk => .ite (.ite ended (programBank_changesOnly hk)) ended

theorem execFltAcceptAll_allows : s.Allows d pin (execFltAcceptAll d s) := by
  refine single_allows (whenRunning_changesOnly (.ite ended ?_))
  split
  · exact ended
  · rename_i hk
    have owned : s.ownsBank d ((s.desc d).firstBank + ((s.argWord 0).getLsbD 0).toNat) = true := by
      simp only [State.ownsBank, Bool.and_eq_true, decide_eq_true_eq]
      exact ⟨Nat.le_add_right _ _, Nat.le_of_not_lt hk⟩
    exact (configure_changesOnly owned _ _ _ _ _).finish _ _

theorem execFltEnable_allows : s.Allows d pin (execFltEnable d k s) :=
  single_allows <| pre_changesOnly fun hk => .ite ((setActive_changesOnly hk _).finish _ _) ended

theorem execFltDisable_allows : s.Allows d pin (execFltDisable d k s) :=
  single_allows <| pre_changesOnly fun hk => (setActive_changesOnly hk _).finish _ _

theorem execFltClearAll_allows : s.Allows d pin (execFltClearAll d s) :=
  single_allows <| whenRunning_changesOnly <| refl.clearOwned.finish _ _

theorem execFltRead_allows : s.Allows d pin (execFltRead d k s) :=
  single_allows <| pre_changesOnly fun _ => ended

/-! ## Lifecycle -/

theorem execDevOpen_allows : s.Allows d pin (execDevOpen d s) :=
  single_allows <| onDevice_changesOnly <| .ite ended <| .ite ended <| ((refl.setBlock _).setDevice _).finish _ _

theorem startDevice_changesOnly {t : State} (h : s.ChangesOnly t d (s.desc d).trxPin) (timing baud : Word) :
    s.ChangesOnly (t.startDevice d timing baud) d (s.desc d).trxPin :=
  ((((h.setDevice _).clearOwned.setRxIe _).setTxIe _).driveTrx _).setDevice _

theorem execDevBegin_allows : s.Allows d (s.desc d).trxPin (execDevBegin d s) := by
  refine single_allows (onDevice_changesOnly (.ite ended ?_))
  rw [beginSetup_eq]
  dsimp only
  split
  · exact ended
  · split
    case h_1 e => exact (hwInit_changesOnly e).finish _ _
    case h_2 e => exact (startDevice_changesOnly (hwInit_changesOnly e) _ _).finish _ _

theorem reprogram_changesOnly (timing baud : Word) : s.ChangesOnly (s.reprogram d timing baud) d pin := by
  unfold State.reprogram
  split
  case h_1 e => exact (loseTiming_changesOnly (hwSetMode_changesOnly refl e)).finish _ _
  case h_2 e =>
    have h := hwSetMode_changesOnly (pin := pin) refl e
    split
    case h_1 e' => exact (loseTiming_changesOnly (hwSetMode_changesOnly h e')).finish _ _
    case h_2 e' => exact ((hwSetMode_changesOnly h e').setDevice _).finish _ _

theorem execSetBaudrate_allows : s.Allows d pin (execSetBaudrate d s) := by
  refine single_allows (whenRunning_changesOnly ?_)
  split
  · exact ended
  · exact reprogram_changesOnly _ _

theorem releaseDevice_changesOnly : s.ChangesOnly (s.releaseDevice d) d (s.desc d).trxPin :=
  (((((((refl.setRxIe _).setTxIe _).setDevice _).clearOwned.setBlock _).setDevice _).driveTrx _).setBlock _).setDevice _

theorem execDevClose_allows : s.Allows d (s.desc d).trxPin (execDevClose d s) :=
  single_allows <| onDevice_changesOnly <| .ite ended <| releaseDevice_changesOnly.finish _ _

/-! ## Write path, read path, error reporting -/

theorem execWrite_allows : s.Allows d pin (execWrite d s) := by
  unfold execWrite
  split
  · exact .next (whenRunning_changesOnly (.ite (refl.goto _ _) ended))
  · exact .next (refl.goto _ _)
  · refine .next ?_
    split
    case h_1 e => exact (hwTransmit_changesOnly e).goto _ _
    case h_2 e => exact (hwTransmit_changesOnly e).goto _ _
  · exact .next ended
  · exact .next ended
  · exact .next pushCheckStep_changesOnly
  · exact .next pushFillStep_changesOnly
  · exact .next pushPublishStep_changesOnly
  · exact .next ((refl.setTxIe _).finish _ _)
  · exact .next ended
  · exact .fault _

theorem execAvailableForWrite_allows : s.Allows d pin (execAvailableForWrite d s) :=
  single_allows <| whenRunning_changesOnly ended

theorem execAvailable_allows : s.Allows d pin (execAvailable d s) := single_allows <| whenRunning_changesOnly ended

theorem execPeek_allows : s.Allows d pin (execPeek d s) := by
  unfold execPeek
  split
  · exact .next (whenRunning_changesOnly (refl.goto _ _))
  · exact .next ((refl.setRxIe _).goto _ _)
  · exact .next peekCheckStep_changesOnly
  · exact .next peekReadStep_changesOnly
  · exact .next finishRead_changesOnly
  · exact .fault _

theorem execRead_allows : s.Allows d pin (execRead d s) := by
  unfold execRead
  split
  · exact .next (whenRunning_changesOnly (refl.goto _ _))
  · exact .next ((refl.setRxIe _).goto _ _)
  · exact .next peekCheckStep_changesOnly
  · exact .next peekReadStep_changesOnly
  · exact .next popCheckStep_changesOnly
  · exact .next popAdvanceStep_changesOnly
  · exact .next finishRead_changesOnly
  · exact .fault _

theorem execGetError_allows : s.Allows d pin (execGetError d s) :=
  single_allows <| whenRunning_changesOnly <| refl.afterDraw.finish _ _

/-! ## Engine handlers -/

theorem execIrqRx_allows : s.Allows d pin (execIrqRx d s) := by
  unfold execIrqRx
  dsimp only
  split
  · exact .next (refl.enterHandler _ _)
  · exact .next ((refl.setRxIe _).exitHandler _)
  · refine .next ?_
    split
    · exact (refl.setBlock _).goto _ _
    · exact refl.raise _ _
  · exact .next pushCheckStep_changesOnly
  · exact .next pushFillStep_changesOnly
  · exact .next pushPublishStep_changesOnly
  · exact .next (refl.exitHandler _)
  · exact .fault _

theorem execIrqTx_allows : s.Allows d pin (execIrqTx d s) := by
  unfold execIrqTx
  dsimp only
  split
  · exact .next (refl.enterHandler _ _)
  · exact .next (refl.goto _ _)
  · exact .next (.ite (refl.raise _ _) (refl.goto _ _))
  · exact .next peekReadStep_changesOnly
  · refine .next ?_
    split
    case h_1 e => exact (hwTransmit_changesOnly e).goto _ _
    case h_2 e => exact (hwTransmit_changesOnly e).goto _ _
  · exact .next popCheckStep_changesOnly
  · exact .next popAdvanceStep_changesOnly
  · exact .next ((State.ChangesOnly.ite (refl.setTxIe _) refl).exitHandler _)
  · exact .fault _

/-! ## Every instruction -/

/-- A step of an instruction changes of the devices, blocks and banks only those of the device it names, and of the pins
only the one it drives. -/
theorem exec_changesOnly {i : Instr} {s t : State} (h : exec i s = .next t) :
    s.ChangesOnly t i.deviceOf (s.drivenPin i) := by
  revert t
  change s.Allows i.deviceOf (s.drivenPin i) (exec i s)
  cases i with
  | rbIsEmpty d ring => exact execRbIsEmpty_allows
  | rbIsFull d ring => exact execRbIsFull_allows
  | rbCount d ring => exact execRbCount_allows
  | rbPush d ring => exact execRbPush_allows
  | rbPeek d ring => exact execRbPeek_allows
  | rbPop d ring => exact execRbPop_allows
  | btSolve => exact execBtSolve_allows
  | fltConfigure d k => exact execFltConfigure_allows
  | fltMask32Std d k => exact execFltMask32Std_allows
  | fltMask32Ext d k => exact execFltMask32Ext_allows
  | fltList32Std d k => exact execFltList32Std_allows
  | fltList32Ext d k => exact execFltList32Ext_allows
  | fltMask16 d k => exact execFltMask16_allows
  | fltList16 d k => exact execFltList16_allows
  | fltAcceptAll d => exact execFltAcceptAll_allows
  | fltEnable d k => exact execFltEnable_allows
  | fltDisable d k => exact execFltDisable_allows
  | fltClearAll d => exact execFltClearAll_allows
  | fltRead d k => exact execFltRead_allows
  | devOpen d => exact execDevOpen_allows
  | devBegin d => exact execDevBegin_allows
  | setBaudrate d => exact execSetBaudrate_allows
  | devClose d => exact execDevClose_allows
  | write d => exact execWrite_allows
  | availableForWrite d => exact execAvailableForWrite_allows
  | available d => exact execAvailable_allows
  | peek d => exact execPeek_allows
  | read d => exact execRead_allows
  | getError d => exact execGetError_allows
  | irqRx d => exact execIrqRx_allows
  | irqTx d => exact execIrqTx_allows

/-- An instruction that drives a pin is `BEGIN` or `CLOSE`, and the pin is its device's. -/
theorem eq_of_drivenPin {i : Instr} {s : State} {p : Nat} (h : s.drivenPin i = some p) :
    (i = .devBegin i.deviceOf ∨ i = .devClose i.deviceOf) ∧ (s.desc i.deviceOf).trxPin = some p := by
  cases i with
  | devBegin d => exact ⟨.inl rfl, h⟩
  | devClose d => exact ⟨.inr rfl, h⟩
  | _ => simp [State.drivenPin] at h

/-! ## Isolation of blocks (R8, R150, R281) -/

/-- In an admitted configuration no device owns a bank of a device of another block (R8(a)). -/
theorem not_owned_of_otherBlock {s : State} (h : s.cfg.admitted = true) {d e k : Nat} (hd : d < s.cfg.numDev)
    (he : e < s.cfg.numDev) (hb : s.blockOf e ≠ s.blockOf d) (hk : s.ownsBank e k = true) :
    s.farrayOf e ≠ s.farrayOf d ∨ s.ownsBank d k = false := by
  refine or_iff_not_imp_left.2 fun ha => ?_
  have apart := Config.owned_disjoint h he hd hb (not_not.1 ha) k
  simp only [State.ownsBank, Bool.and_eq_true, decide_eq_true_eq] at hk
  simp only [State.ownsBank, Bool.and_eq_false_imp, decide_eq_true_eq, decide_eq_false_iff_not]
  exact fun h₁ h₂ => apart ⟨hk.1, hk.2, h₁, h₂⟩

/-- Acceptance by a device depends on its descriptor and its owned banks. -/
theorem deviceAccepts_congr {s t : State} {e : Nat} (cfg : t.cfg = s.cfg)
    (bank : ∀ k, s.ownsBank e k = true → t.bank (s.farrayOf e) k = s.bank (s.farrayOf e) k) (f : Frame) :
    t.deviceAccepts e f = s.deviceAccepts e f := by
  rw [Bool.eq_iff_iff]
  simp only [State.deviceAccepts, desc_eq_of_cfg cfg, farrayOf_eq_of_cfg cfg, List.any_eq_true, List.mem_range'_1]
  refine exists_congr fun k => and_congr_right fun hk => ?_
  rw [bank k]
  simp only [State.ownsBank, Bool.and_eq_true, decide_eq_true_eq]
  omega

/-- Acceptance by a block depends on the configuration and the banks its devices own (R169). -/
theorem accepts_congr {s t : State} {b : Nat} (cfg : t.cfg = s.cfg)
    (bank : ∀ e < s.cfg.numDev, s.blockOf e = b →
      ∀ k, s.ownsBank e k = true → t.bank (s.farrayOf e) k = s.bank (s.farrayOf e) k) (f : Frame) :
    t.accepts b f = s.accepts b f := by
  simp only [State.accepts, cfg, blockOf_eq_of_cfg cfg]
  cases h : (List.range s.cfg.numDev).find? fun d => decide (s.blockOf d = b) with
  | none => rfl
  | some e =>
    have he : e < s.cfg.numDev := List.mem_range.1 (List.mem_of_find?_eq_some h)
    have hb : s.blockOf e = b := by simpa using List.find?_some h
    exact deviceAccepts_congr cfg (bank e he hb) f

/-- `TRX[e]` changes only where its pin is the one that may be driven. -/
theorem State.ChangesOnly.trxPin_of_trx_ne {s t : State} {d e : Nat} {pin : Option Nat} (h : s.ChangesOnly t d pin)
    (ne : t.trx e ≠ s.trx e) : ∃ p, (s.desc e).trxPin = some p ∧ pin = some p := by
  simp only [State.trx, desc_eq_of_cfg h.cfg] at ne
  cases he : (s.desc e).trxPin with
  | none => simp [he] at ne
  | some p => exact ⟨p, rfl, not_not.1 fun hp => ne (by simp only [he]; exact h.pinLevel p hp)⟩

end Machine

open Machine

/-- Settles O53: a step changes only what is its device's (`exec_changesOnly`), and by R8(a) no bank of another block is. -/
theorem blockIsolation : Obligations.BlockIsolation := by
  intro i s t e fits _ hd he hb step
  have only := exec_changesOnly step
  have bank : ∀ e' < s.cfg.numDev, s.blockOf e' ≠ s.blockOf i.deviceOf →
      ∀ k, s.ownsBank e' k = true → t.bank (s.farrayOf e') k = s.bank (s.farrayOf e') k :=
    fun e' he' hb' k hk => only.bank _ k (not_owned_of_otherBlock fits.1 hd he' hb' hk)
  refine ⟨only.device e fun h => hb (h ▸ rfl), fun ne => ?_, only.block _ hb, bank e he hb,
    accepts_congr only.cfg fun e' he' h => bank e' he' (h ▸ hb)⟩
  obtain ⟨p, hp, driven⟩ := only.trxPin_of_trx_ne ne
  obtain ⟨drives, hpin⟩ := eq_of_drivenPin driven
  exact ⟨drives, by simp [hp], hp.trans hpin.symm⟩

end Sys2Proof
end

section
/-!
SUPPORT. A step as a sequence of elementary writes (spec/10_state.md R23 to R31): each table of the state has one kind of
write, and the permission a write needs says which instruction may change the fields other rules guard. What a step keeps is
then an induction over six kinds of write, not over the instructions.
-/

namespace Sys2Proof
namespace Machine

/-! ## Permissions; `i` is the instruction that runs, none in a step of the host or of `BUS[b]` -/

/-- The instruction may give `ST[d]` the value `l` (R23, R192, R193, R195). -/
def State.LifeWrite (s : State) (i : Option Instr) (d : Nat) (l : Life) : Prop :=
  s.cfg.hasDevice d = true ∧
  ((i = some (.devOpen d) ∧ l = .configured) ∨
   (i = some (.devBegin d) ∧ (s.device d).st = .configured ∧ l = .running) ∨
   (i = some (.devClose d) ∧ l = .uninit))

/-- The instruction may give `RX_IE[d]` the value `v` (R27). -/
def RxWrite (i : Option Instr) (d : Nat) (v : Bool) : Prop :=
  ((i = some (.devOpen d) ∨ i = some (.devClose d) ∨ i = some (.irqRx d)) ∧ v = false) ∨
  i = some (.devBegin d) ∨ i = some (.peek d) ∨ i = some (.read d)

/-- The instruction may give `TX_IE[d]` the value `v` (R27, R196, R233). -/
def State.TxWrite (s : State) (i : Option Instr) (d : Nat) (v : Bool) : Prop :=
  ((i = some (.devOpen d) ∨ i = some (.devBegin d) ∨ i = some (.devClose d)) ∧ v = false) ∨
  (i = some (.write d) ∧ s.cur = some (.finishBool true)) ∨
  (i = some (.irqTx d) ∧ v = false ∧ (s.ring ⟨d, .tx⟩).isEmpty = true)

/-- The instruction may give the registry entry of block `b` the given values (R24, R192, R195). -/
def State.ClaimWrite (s : State) (i : Option Instr) (b : Nat) (claim : Bool) (owner : Nat) : Prop :=
  ∃ d, s.cfg.hasDevice d = true ∧ s.blockOf d = b ∧
    ((i = some (.devOpen d) ∧ (s.block b).claim = false ∧ claim = true ∧ owner = d) ∨
     (i = some (.devClose d) ∧ claim = false))

/-- The instruction may drive the pin of device `d` to `v` (R204). -/
def State.PinWrite (s : State) (i : Option Instr) (d : Nat) (v : Bool) : Prop :=
  s.cfg.hasDevice d = true ∧
  ((i = some (.devBegin d) ∧ v = (s.desc d).trxAwake) ∨ (i = some (.devClose d) ∧ v = !(s.desc d).trxAwake))

/-- Device `d` may go from `x` to `y`: each guarded field stands or is written with permission. -/
structure State.DeviceWrite (s : State) (i : Option Instr) (d : Nat) (x y : DevState) : Prop where
  slot : ∀ sel, Memory.wf (x.ring sel).slot → Memory.wf (y.ring sel).slot
  st : y.st = x.st ∨ s.LifeWrite i d y.st
  rxIe : y.rxIe = x.rxIe ∨ RxWrite i d y.rxIe
  txIe : y.txIe = x.txIe ∨ s.TxWrite i d y.txIe

/-- Block `b` may go from `x` to `y`: the registry entry stands or is written with permission, `OWNER` by `OPEN` alone. -/
structure State.BlockWrite (s : State) (i : Option Instr) (b : Nat) (x y : BlockState) : Prop where
  registry : (y.claim = x.claim ∧ y.owner = x.owner) ∨ s.ClaimWrite i b y.claim y.owner
  owner : y.owner = x.owner ∨ ∃ d, i = some (.devOpen d)

/-- A filter array goes from `x` to `y` inside the write-protect bracket (R153). -/
structure FilterArray.Rewrite (x y : FilterArray) : Prop where
  wp : y.wp = true
  banks : y.banks.length = x.banks.length

/-- `t` is reached from `s` by the writes that one step of `i` may make. -/
inductive State.Writes (s : State) (i : Option Instr) : State → Prop
  | refl : s.Writes i s
  /-- the command port, the agents, the draws, and faults, which are only added -/
  | control {t u : State} (h : s.Writes i t) (cfg : u.cfg = t.cfg) (dev : u.dev = t.dev) (blk : u.blk = t.blk)
      (flt : u.flt = t.flt) (pins : u.pins = t.pins) (faults : t.faults ⊆ u.faults) : s.Writes i u
  | device {t : State} (h : s.Writes i t) {d : Nat} {x : DevState} (ok : s.DeviceWrite i d (t.device d) x) :
      s.Writes i (t.setDevice d x)
  | block {t : State} (h : s.Writes i t) {b : Nat} {x : BlockState} (ok : s.BlockWrite i b (t.block b) x) :
      s.Writes i (t.setBlock b x)
  | array {t : State} (h : s.Writes i t) {a : Nat} {x : FilterArray} (ok : (t.array a).Rewrite x) :
      s.Writes i (t.setArray a x)
  | pin {t : State} (h : s.Writes i t) {d : Nat} {v : Bool} (ok : s.PinWrite i d v) : s.Writes i (t.driveTrx d v)

/-! ## Taking a choice leaves every table -/

@[simp] theorem afterChoice_cfg (s : State) : s.afterChoice.cfg = s.cfg := by unfold State.afterChoice; split <;> rfl
@[simp] theorem afterChoice_cmd (s : State) : s.afterChoice.cmd = s.cmd := by unfold State.afterChoice; split <;> rfl
@[simp] theorem afterChoice_dev (s : State) : s.afterChoice.dev = s.dev := by unfold State.afterChoice; split <;> rfl
@[simp] theorem afterChoice_blk (s : State) : s.afterChoice.blk = s.blk := by unfold State.afterChoice; split <;> rfl
@[simp] theorem afterChoice_flt (s : State) : s.afterChoice.flt = s.flt := by unfold State.afterChoice; split <;> rfl
@[simp] theorem afterChoice_pins (s : State) : s.afterChoice.pins = s.pins := by unfold State.afterChoice; split <;> rfl
@[simp] theorem afterChoice_cur (s : State) : s.afterChoice.cur = s.cur := by unfold State.afterChoice; split <;> rfl
@[simp] theorem afterChoice_faults (s : State) : s.afterChoice.faults = s.faults := by
  unfold State.afterChoice; split <;> rfl

@[simp] theorem afterChoice_desc (s : State) (d : Nat) : s.afterChoice.desc d = s.desc d := desc_eq_of_cfg (by simp) d
@[simp] theorem afterChoice_blockOf (s : State) (d : Nat) : s.afterChoice.blockOf d = s.blockOf d :=
  blockOf_eq_of_cfg (by simp) d
@[simp] theorem afterChoice_device (s : State) (d : Nat) : s.afterChoice.device d = s.device d :=
  device_eq_of_dev (by simp) d
@[simp] theorem afterChoice_ring (s : State) (ref : RingRef) : s.afterChoice.ring ref = s.ring ref :=
  ring_eq_of_dev (by simp) ref
@[simp] theorem afterChoice_block (s : State) (b : Nat) : s.afterChoice.block b = s.block b := block_eq_of_blk (by simp) b
@[simp] theorem afterChoice_array (s : State) (a : Nat) : s.afterChoice.array a = s.array a := array_eq_of_flt (by simp) a
@[simp] theorem afterChoice_trx (s : State) (e : Nat) : s.afterChoice.trx e = s.trx e := by
  simp [State.trx, State.pinLevel]

/-! ## Filter arrays: the bracket of R153 is one write -/

theorem setArray_of_length_le (s : State) {a : Nat} (x : FilterArray) (h : s.flt.length ≤ a) : s.setArray a x = s := by
  simp [State.setArray, List.set_eq_of_length_le h]

/-- Two writes of one array, the second made from what the first left, are one write. -/
theorem setArray_bind (s : State) (a : Nat) (x : FilterArray) (g : FilterArray → FilterArray) :
    (s.setArray a x).setArray a (g ((s.setArray a x).array a)) = s.setArray a (g x) := by
  rcases Nat.lt_or_ge a s.flt.length with h | h
  · rw [array_setArray_self _ _ h]
    simp [State.setArray]
  · rw [setArray_of_length_le _ _ (by simpa using h), setArray_of_length_le _ _ h, setArray_of_length_le _ _ h]

/-- Unlock, rewrite the banks, lock (R153): one write of the array. -/
theorem bracket_eq (s : State) (a : Nat) (g : List Bank → List Bank) :
    ((s.setWp a false).setArray a { (s.setWp a false).array a with banks := g ((s.setWp a false).array a).banks }).setWp a
      true = s.setArray a { banks := g (s.array a).banks, wp := true } := by
  have inner := setArray_bind s a { s.array a with wp := false } fun y => { y with banks := g y.banks }
  have outer := setArray_bind s a { banks := g (s.array a).banks, wp := false } fun y => { y with wp := true }
  exact (congrArg (State.setWp · a true) inner).trans outer

theorem clearRange_length (lo hi : Nat) (l : List Bank) (i : Nat) : (clearRange lo hi i l).length = l.length := by
  induction l generalizing i with
  | nil => rfl
  | cons x l ih => simp [clearRange, ih]

/-! ## Slot RAM -/

theorem Ring.memWrite_wf {r r' : Ring} {a : Nat} {v : Word} (e : r.memWrite a v = some r') (h : Memory.wf r.slot) :
    Memory.wf r'.slot := by
  unfold Ring.memWrite at e
  split at e
  · cases e
    exact Memory.wf_writeWord _ _ h
  · cases e

/-- Filling a slot, where it succeeds, keeps the slot RAM canonical (R53). -/
theorem Ring.fill_wf {r r' : Ring} {h : Nat} {w : FrameWords} (e : r.fill h w = some r') (hr : Memory.wf r.slot) :
    Memory.wf r'.slot := by
  simp only [Ring.fill, Option.bind_eq_bind, Option.bind_eq_some_iff] at e
  obtain ⟨r₀, e₀, r₁, e₁, r₂, e₂, e₃⟩ := e
  exact Ring.memWrite_wf e₃ (Ring.memWrite_wf e₂ (Ring.memWrite_wf e₁ (Ring.memWrite_wf e₀ hr)))

/-! ## The operations as writes -/

namespace State.Writes

variable {s t u : State} {i : Option Instr} {d : Nat}

protected theorem ite {c : Prop} [Decidable c] (h : s.Writes i t) (g : s.Writes i u) : s.Writes i (if c then t else u) := by
  split
  · exact h
  · exact g

theorem finish (h : s.Writes i t) (c : StatusCode) (l : List Word) : s.Writes i (t.finish c l) :=
  h.control rfl rfl rfl rfl rfl (List.Subset.refl _)

/-- The command ends with a status and its results, and no other effect. -/
theorem ended {c : StatusCode} {l : List Word} : s.Writes i (s.finish c l) := refl.finish c l

theorem goto (h : s.Writes i t) (a : Agent) (p : Pos) : s.Writes i (t.goto a p) :=
  h.control (by simp) (by simp) (by simp) (by simp) (by simp) (by simp)

theorem enterHandler (h : s.Writes i t) (g : Handler) (p : Pos) : s.Writes i (t.enterHandler g p) :=
  h.control rfl rfl rfl rfl rfl (List.Subset.refl _)

theorem exitHandler (h : s.Writes i t) (g : Handler) : s.Writes i (t.exitHandler g) :=
  h.control rfl rfl rfl rfl rfl (List.Subset.refl _)

theorem afterDraw (h : s.Writes i t) : s.Writes i t.afterDraw := h.control rfl rfl rfl rfl rfl (List.Subset.refl _)

theorem raise (h : s.Writes i t) (a : Agent) (f : ModelFault) : s.Writes i (t.raise a f) := by
  refine h.control (by simp) (by simp) (by simp) (by simp) (by simp) ?_
  unfold State.raise
  split <;> simp

theorem setRing (h : s.Writes i t) {ref : RingRef} {r : Ring} (wf : Memory.wf (t.ring ref).slot → Memory.wf r.slot) :
    s.Writes i (t.setRing ref r) := by
  refine h.device ⟨fun sel hx => ?_, .inl (by simp), .inl (by simp), .inl (by simp)⟩
  by_cases hs : ref.sel = sel
  · subst hs
    rw [DevState.ring_setRing_self]
    exact wf hx
  · rwa [DevState.ring_setRing_ne _ _ hs]

theorem setTiming (h : s.Writes i t) (d : Nat) (timing baud : Word) (v : Bool) :
    s.Writes i (t.setDevice d { t.device d with timing := timing, baud := baud, baudValid := v }) :=
  h.device ⟨fun sel => by cases sel <;> exact id, .inl rfl, .inl rfl, .inl rfl⟩

theorem setLife (h : s.Writes i t) {l : Life} (ok : s.LifeWrite i d l) :
    s.Writes i (t.setDevice d { t.device d with st := l }) :=
  h.device ⟨fun sel => by cases sel <;> exact id, .inr ok, .inl rfl, .inl rfl⟩

theorem setRxIe (h : s.Writes i t) {v : Bool} (ok : RxWrite i d v) : s.Writes i (t.setRxIe d v) :=
  h.device ⟨fun sel => by cases sel <;> exact id, .inl rfl, .inr ok, .inl rfl⟩

theorem setTxIe (h : s.Writes i t) {v : Bool} (ok : s.TxWrite i d v) : s.Writes i (t.setTxIe d v) :=
  h.device ⟨fun sel => by cases sel <;> exact id, .inl rfl, .inl rfl, .inr ok⟩

/-- Freeing both rings (R195). -/
theorem freeRings (h : s.Writes i t) (d : Nat) :
    s.Writes i (t.setDevice d { t.device d with rxr := Ring.unallocated, txr := Ring.unallocated }) :=
  h.device ⟨fun sel _ => by cases sel <;> exact List.Pairwise.nil, .inl rfl, .inl rfl, .inl rfl⟩

/-- The controller of a block: its mailboxes, FIFO and mode (R32). -/
theorem setController (h : s.Writes i t) (b : Nat) (mbox rxfifo : List Frame) (mode : HwMode) :
    s.Writes i (t.setBlock b { t.block b with mbox := mbox, rxfifo := rxfifo, hwMode := mode }) :=
  h.block ⟨.inl ⟨rfl, rfl⟩, .inl rfl⟩

/-- A change of the banks inside the bracket of R153. -/
theorem bracket (h : s.Writes i t) (a : Nat) (g : List Bank → List Bank) (len : ∀ l, (g l).length = l.length) :
    s.Writes i (((t.setWp a false).setArray a
      { (t.setWp a false).array a with banks := g ((t.setWp a false).array a).banks }).setWp a true) := by
  rw [bracket_eq]
  exact h.array ⟨rfl, len _⟩

theorem configure (h : s.Writes i t) (a k : Nat) (p m : Word) (md sc en : Bool) :
    s.Writes i (t.configure a k p m md sc en) := h.bracket a (·.set k _) fun _ => List.length_set

theorem setActive (h : s.Writes i t) (a k : Nat) (v : Bool) : s.Writes i (t.setActive a k v) :=
  h.bracket a (·.set k _) fun _ => List.length_set

theorem clearOwned (h : s.Writes i t) (d : Nat) : s.Writes i (t.clearOwned d) :=
  h.bracket (t.farrayOf d) _ fun _ => clearRange_length ..

end State.Writes

/-! ## The shared steps of the meanings -/

/-- Whatever next state the result answers with is reached by the writes of `i`. -/
def State.Answers (s : State) (i : Option Instr) (r : Result) : Prop := ∀ t, r = .next t → s.Writes i t

section Steps

open State.Writes (refl ended)

variable {s t u : State} {i : Option Instr} {d : Nat}

theorem State.Answers.next (h : s.Writes i t) : s.Answers i (.next t) := fun _ e => by cases e; exact h

theorem State.Answers.fault (r : Fault) : s.Answers i (.fault r) := fun _ e => by cases e

theorem single_answers (h : s.Writes i t) : s.Answers i (single s t) := fun _ e => (single_eq_next.1 e).2 ▸ h

theorem onDevice_writes (h : s.cfg.hasDevice d = true → s.Writes i t) : s.Writes i (onDevice d s t) := by
  unfold onDevice
  split
  · exact h ‹_›
  · exact ended

theorem whenRunning_writes (h : s.Writes i t) : s.Writes i (whenRunning d s t) :=
  onDevice_writes fun _ => .ite h ended

theorem pre_writes {k : Nat} (h : s.Writes i t) : s.Writes i (pre d k s t) := whenRunning_writes (.ite h ended)

theorem programBank_writes {k : Nat} {p m : Word} {md sc en : Bool} :
    s.Writes i (programBank d k p m md sc en s) := (refl.configure ..).finish _ _

theorem pushCheckStep_writes {a : Agent} {ref : RingRef} {f : Frame} {p : Pos} :
    s.Writes i (pushCheckStep a ref f p s) := .ite (refl.goto _ _) (refl.goto _ _)

theorem pushFillStep_writes {a : Agent} {ref : RingRef} {h : Nat} {f : Frame} :
    s.Writes i (pushFillStep a ref h f s) := by
  rcases pushFillStep_cases a ref h f s with ⟨r, filled, e⟩ | e <;> rw [e]
  · exact (refl.setRing (Ring.fill_wf filled)).goto _ _
  · exact refl.raise _ _

theorem pushPublishStep_writes {a : Agent} {ref : RingRef} {h : Nat} {p : Pos} :
    s.Writes i (pushPublishStep a ref h p s) := (refl.setRing (r := (s.ring ref).publish h) id).goto _ _

theorem peekCheckStep_writes {a : Agent} {ref : RingRef} {p : Pos} :
    s.Writes i (peekCheckStep a ref p s) := .ite (refl.goto _ _) (refl.goto _ _)

theorem peekReadStep_writes {a : Agent} {ref : RingRef} {n : Nat} {after : Frame → Pos} :
    s.Writes i (peekReadStep a ref n after s) := by
  rcases peekReadStep_cases a ref n after s with ⟨w, _, e⟩ | ⟨f, e⟩ <;> rw [e]
  · exact refl.goto _ _
  · exact refl.raise _ _

theorem popCheckStep_writes {a : Agent} {ref : RingRef} {x : Option Frame} {p : Pos} :
    s.Writes i (popCheckStep a ref x p s) := .ite (refl.goto _ _) (refl.goto _ _)

theorem popAdvanceStep_writes {a : Agent} {ref : RingRef} {n : Nat} {p : Pos} :
    s.Writes i (popAdvanceStep a ref n p s) := (refl.setRing (r := (s.ring ref).advance n) id).goto _ _

theorem finishRead_writes {x : Option Frame} (ok : RxWrite i d true) : s.Writes i (finishRead d x s) := by
  cases x <;> exact (refl.setRxIe ok).finish _ _

theorem hwTransmit_writes {b : Nat} {f : Frame} {ok : Bool} (e : s.hwTransmit b f = (ok, t)) : s.Writes i t := by
  rcases hwTransmit_cases s b f with ⟨_, _, h⟩ | ⟨_, _, _, h⟩ | ⟨_, _, _, h⟩ | ⟨_, h⟩ <;> cases h ▸ e
  · exact refl.setController ..
  · exact refl.afterDraw.setController ..
  · exact refl.afterDraw
  · exact refl

theorem hwInit_writes {b base remap : Nat} {w : Word} {ok : Bool} (e : s.hwInit b base remap w = (ok, t)) :
    s.Writes i t := by
  cases h : drawnBool s.nextDraw
  · cases hwInit_of_false b base remap w h ▸ e
    exact refl.afterDraw.setController ..
  · cases hwInit_of_true b base remap w h ▸ e
    exact refl.afterDraw.setController ..

theorem hwSetMode_writes (h : s.Writes i t) {b : Nat} {m : HwMode} {ok : Bool} (e : t.hwSetMode b m = (ok, u)) :
    s.Writes i u := by
  cases hd : drawnBool t.nextDraw
  · cases hwSetMode_of_false b m hd ▸ e
    exact h.afterDraw.afterDraw.setController ..
  · cases hwSetMode_of_true b m hd ▸ e
    exact h.afterDraw.setController ..

theorem loseTiming_writes (h : s.Writes i t) : s.Writes i (t.loseTiming d) := h.afterDraw.afterDraw.setTiming ..

end Steps
end Machine
end Sys2Proof
end

section
/-!
SUPPORT. The writes of each instruction: one lemma per meaning, in the order of the opcode table; then those of a whole step
(spec/20_memory.md R60), with the agent that makes them.
-/

namespace Sys2Proof
namespace Machine

open State.Writes (refl ended)

variable {d k : Nat} {ring : RingSel} {s t : State} {i : Option Instr}

/-! ## Ring commands -/

theorem execRbIsEmpty_writes : s.Answers i (execRbIsEmpty d ring s) := by
  unfold execRbIsEmpty
  split
  · exact .next (whenRunning_writes (refl.goto _ _))
  · exact .next ended
  · exact .fault _

theorem execRbIsFull_writes : s.Answers i (execRbIsFull d ring s) := by
  unfold execRbIsFull
  split
  · exact .next (whenRunning_writes (refl.goto _ _))
  · exact .next ended
  · exact .fault _

theorem execRbCount_writes : s.Answers i (execRbCount d ring s) := by
  unfold execRbCount
  split
  · exact .next (whenRunning_writes (refl.goto _ _))
  · exact .next ended
  · exact .fault _

theorem execRbPush_writes : s.Answers i (execRbPush d ring s) := by
  unfold execRbPush
  split
  · exact .next (whenRunning_writes (.ite ended (.ite (refl.goto _ _) ended)))
  · exact .next pushCheckStep_writes
  · exact .next pushFillStep_writes
  · exact .next pushPublishStep_writes
  · exact .next ended
  · exact .fault _

theorem execRbPeek_writes : s.Answers i (execRbPeek d ring s) := by
  unfold execRbPeek
  split
  · exact .next (whenRunning_writes (.ite ended (refl.goto _ _)))
  · exact .next peekCheckStep_writes
  · exact .next peekReadStep_writes
  · exact .next ended
  · exact .next ended
  · exact .fault _

theorem execRbPop_writes : s.Answers i (execRbPop d ring s) := by
  unfold execRbPop
  split
  · exact .next (whenRunning_writes (.ite ended (refl.goto _ _)))
  · exact .next popCheckStep_writes
  · exact .next popAdvanceStep_writes
  · exact .next ended
  · exact .fault _

/-! ## `BT_SOLVE` and the filter commands -/

theorem execBtSolve_writes : s.Answers i (execBtSolve s) := by
  refine single_answers ?_
  split <;> exact ended

theorem execFltConfigure_writes : s.Answers i (execFltConfigure d k s) :=
  single_answers <| pre_writes <| .ite ended programBank_writes

theorem execFltMask32Std_writes : s.Answers i (execFltMask32Std d k s) :=
  single_answers <| pre_writes <| .ite programBank_writes ended

theorem execFltMask32Ext_writes : s.Answers i (execFltMask32Ext d k s) :=
  single_answers <| pre_writes <| .ite programBank_writes ended

theorem execFltList32Std_writes : s.Answers i (execFltList32Std d k s) :=
  single_answers <| pre_writes <| .ite (.ite ended programBank_writes) ended

theorem execFltList32Ext_writes : s.Answers i (execFltList32Ext d k s) :=
  single_answers <| pre_writes <| .ite (.ite ended programBank_writes) ended

theorem execFltMask16_writes : s.Answers i (execFltMask16 d k s) :=
  single_answers <| pre_writes <| .ite programBank_writes ended

theorem execFltList16_writes : s.Answers i (execFltList16 d k s) :=
  single_answers <| pre_writes <| .ite (.ite ended programBank_writes) ended

theorem execFltAcceptAll_writes : s.Answers i (execFltAcceptAll d s) :=
  single_answers <| whenRunning_writes <| .ite ended <| .ite ended <| (refl.configure ..).finish _ _

theorem execFltEnable_writes : s.Answers i (execFltEnable d k s) :=
  single_answers <| pre_writes <| .ite ((refl.setActive ..).finish _ _) ended

theorem execFltDisable_writes : s.Answers i (execFltDisable d k s) :=
  single_answers <| pre_writes <| (refl.setActive ..).finish _ _

theorem execFltClearAll_writes : s.Answers i (execFltClearAll d s) :=
  single_answers <| whenRunning_writes <| (refl.clearOwned d).finish _ _

theorem execFltRead_writes : s.Answers i (execFltRead d k s) := single_answers <| pre_writes ended

/-! ## Lifecycle -/

theorem claimDevice_writes {rxCap txCap : Nat} (present : s.cfg.hasDevice d = true)
    (free : (s.block (s.blockOf d)).claim = false) :
    s.Writes (some (.devOpen d)) (s.claimDevice d rxCap txCap) := by
  have claimed : s.Writes (some (.devOpen d))
      (s.setBlock (s.blockOf d) { s.block (s.blockOf d) with claim := true, owner := d }) :=
    refl.block ⟨.inr ⟨d, present, rfl, .inl ⟨rfl, free, rfl, rfl⟩⟩, .inr ⟨d, rfl⟩⟩
  exact claimed.device ⟨fun sel _ => by cases sel <;> exact List.Pairwise.nil, .inr ⟨present, .inl ⟨rfl, rfl⟩⟩,
    .inr (.inl ⟨.inl rfl, rfl⟩), .inr (.inl ⟨.inl rfl, rfl⟩)⟩

theorem execDevOpen_writes : s.Answers (some (.devOpen d)) (execDevOpen d s) := by
  refine single_answers <| onDevice_writes fun present => .ite ended ?_
  split
  · exact ended
  · rename_i free
    exact (claimDevice_writes present (by simpa using free)).finish _ _

theorem startDevice_writes {timing baud : Word} (h : s.Writes (some (.devBegin d)) t) (cfg : t.cfg = s.cfg)
    (present : s.cfg.hasDevice d = true) (configured : (s.device d).st = .configured) :
    s.Writes (some (.devBegin d)) (t.startDevice d timing baud) := by
  have cleared := (h.setTiming d timing baud true).clearOwned d
  have armed := (cleared.setRxIe (v := true) (.inr (.inl rfl))).setTxIe (d := d) (.inl ⟨.inr (.inl rfl), rfl⟩)
  have awake := armed.pin (d := d) ⟨present, .inl ⟨rfl, rfl⟩⟩
  rw [← desc_eq_of_cfg cfg] at awake
  exact awake.setLife ⟨present, .inr (.inl ⟨rfl, configured, rfl⟩)⟩

theorem hwInit_cfg (s : State) (b base remap : Nat) (w : Word) : (s.hwInit b base remap w).2.cfg = s.cfg := by
  unfold State.hwInit
  dsimp only
  split <;> rfl

theorem execDevBegin_writes : s.Answers (some (.devBegin d)) (execDevBegin d s) := by
  refine single_answers <| onDevice_writes fun present => ?_
  split
  · exact ended
  · rename_i configured
    rw [beginSetup_eq]
    dsimp only
    split
    · exact ended
    · split
      case h_1 e => exact (hwInit_writes e).finish _ _
      case h_2 e =>
        have cfg := congrArg (fun r => r.2.cfg) e
        exact (startDevice_writes (hwInit_writes e) (cfg.symm.trans (hwInit_cfg ..)) present
          (not_not.1 configured)).finish _ _

theorem reprogram_writes (timing baud : Word) : s.Writes i (s.reprogram d timing baud) := by
  unfold State.reprogram
  split
  case h_1 e => exact (loseTiming_writes (hwSetMode_writes refl e)).finish _ _
  case h_2 e =>
    have h := hwSetMode_writes (i := i) refl e
    split
    case h_1 e' => exact (loseTiming_writes (hwSetMode_writes h e')).finish _ _
    case h_2 e' => exact ((hwSetMode_writes h e').setTiming ..).finish _ _

theorem execSetBaudrate_writes : s.Answers i (execSetBaudrate d s) := by
  refine single_answers (whenRunning_writes ?_)
  split
  · exact ended
  · exact reprogram_writes _ _

theorem releaseDevice_writes (present : s.cfg.hasDevice d = true) :
    s.Writes (some (.devClose d)) (s.releaseDevice d) := by
  have disarmed : s.Writes (some (.devClose d)) ((s.setRxIe d false).setTxIe d false) :=
    (refl.setRxIe (.inl ⟨.inr (.inl rfl), rfl⟩)).setTxIe (.inl ⟨.inr (.inr rfl), rfl⟩)
  have cleared := ((disarmed.freeRings d).clearOwned d).setController (s.blockOf d) [] [] .reset
  have asleep := (cleared.setTiming d 0 0 false).pin (d := d) ⟨present, .inr ⟨rfl, rfl⟩⟩
  have released := asleep.block (b := s.blockOf d) (x := { State.block _ (s.blockOf d) with claim := false })
    ⟨.inr ⟨d, present, rfl, .inr ⟨rfl, rfl⟩⟩, .inl rfl⟩
  exact released.setLife ⟨present, .inr (.inr ⟨rfl, rfl⟩)⟩

theorem execDevClose_writes : s.Answers (some (.devClose d)) (execDevClose d s) :=
  single_answers <| onDevice_writes fun present => .ite ended <| (releaseDevice_writes present).finish _ _

/-! ## Write path, read path, error reporting -/

theorem execWrite_writes : s.Answers (some (.write d)) (execWrite d s) := by
  unfold execWrite
  split
  · exact .next (whenRunning_writes (.ite (refl.goto _ _) ended))
  · exact .next (refl.goto _ _)
  · refine .next ?_
    split
    case h_1 e => exact (hwTransmit_writes e).goto _ _
    case h_2 e => exact (hwTransmit_writes e).goto _ _
  · exact .next ended
  · exact .next ended
  · exact .next pushCheckStep_writes
  · exact .next pushFillStep_writes
  · exact .next pushPublishStep_writes
  · rename_i pushed
    have cur : s.cur = some (.finishBool true) := by
      cases h : s.cur <;> simp_all [State.pos]
    exact .next ((refl.setTxIe (.inr (.inl ⟨rfl, cur⟩))).finish _ _)
  · exact .next ended
  · exact .fault _

theorem execAvailableForWrite_writes : s.Answers i (execAvailableForWrite d s) :=
  single_answers <| whenRunning_writes ended

theorem execAvailable_writes : s.Answers i (execAvailable d s) := single_answers <| whenRunning_writes ended

theorem execPeek_writes : s.Answers (some (.peek d)) (execPeek d s) := by
  have mayArm (v : Bool) : RxWrite (some (.peek d)) d v := .inr (.inr (.inl rfl))
  unfold execPeek
  split
  · exact .next (whenRunning_writes (refl.goto _ _))
  · exact .next ((refl.setRxIe (mayArm _)).goto _ _)
  · exact .next peekCheckStep_writes
  · exact .next peekReadStep_writes
  · exact .next (finishRead_writes (mayArm _))
  · exact .fault _

theorem execRead_writes : s.Answers (some (.read d)) (execRead d s) := by
  have mayArm (v : Bool) : RxWrite (some (.read d)) d v := .inr (.inr (.inr rfl))
  unfold execRead
  split
  · exact .next (whenRunning_writes (refl.goto _ _))
  · exact .next ((refl.setRxIe (mayArm _)).goto _ _)
  · exact .next peekCheckStep_writes
  · exact .next peekReadStep_writes
  · exact .next popCheckStep_writes
  · exact .next popAdvanceStep_writes
  · exact .next (finishRead_writes (mayArm _))
  · exact .fault _

theorem execGetError_writes : s.Answers i (execGetError d s) :=
  single_answers <| whenRunning_writes <| refl.afterDraw.finish _ _

/-! ## Engine handlers -/

theorem execIrqRx_writes : s.Answers (some (.irqRx d)) (execIrqRx d s) := by
  unfold execIrqRx
  dsimp only
  split
  · exact .next (refl.enterHandler _ _)
  · exact .next ((refl.setRxIe (.inl ⟨.inr (.inr rfl), rfl⟩)).exitHandler _)
  · refine .next ?_
    split
    · exact (refl.setController ..).goto _ _
    · exact refl.raise _ _
  · exact .next pushCheckStep_writes
  · exact .next pushFillStep_writes
  · exact .next pushPublishStep_writes
  · exact .next (refl.exitHandler _)
  · exact .fault _

theorem execIrqTx_writes : s.Answers (some (.irqTx d)) (execIrqTx d s) := by
  unfold execIrqTx
  dsimp only
  split
  · exact .next (refl.enterHandler _ _)
  · exact .next (refl.goto _ _)
  · exact .next (.ite (refl.raise _ _) (refl.goto _ _))
  · exact .next peekReadStep_writes
  · refine .next ?_
    split
    case h_1 e => exact (hwTransmit_writes e).goto _ _
    case h_2 e => exact (hwTransmit_writes e).goto _ _
  · exact .next popCheckStep_writes
  · exact .next popAdvanceStep_writes
  · refine .next (State.Writes.exitHandler ?_ _)
    split
    · rename_i empty
      exact refl.setTxIe (.inr (.inr ⟨rfl, rfl, empty⟩))
    · exact refl
  · exact .fault _

/-! ## Every instruction -/

/-- The next state of an instruction is reached by the writes the instruction may make. -/
theorem exec_writes {i : Instr} (h : exec i s = .next t) : s.Writes (some i) t := by
  revert t
  change s.Answers (some i) (exec i s)
  cases i with
  | rbIsEmpty d ring => exact execRbIsEmpty_writes
  | rbIsFull d ring => exact execRbIsFull_writes
  | rbCount d ring => exact execRbCount_writes
  | rbPush d ring => exact execRbPush_writes
  | rbPeek d ring => exact execRbPeek_writes
  | rbPop d ring => exact execRbPop_writes
  | btSolve => exact execBtSolve_writes
  | fltConfigure d k => exact execFltConfigure_writes
  | fltMask32Std d k => exact execFltMask32Std_writes
  | fltMask32Ext d k => exact execFltMask32Ext_writes
  | fltList32Std d k => exact execFltList32Std_writes
  | fltList32Ext d k => exact execFltList32Ext_writes
  | fltMask16 d k => exact execFltMask16_writes
  | fltList16 d k => exact execFltList16_writes
  | fltAcceptAll d => exact execFltAcceptAll_writes
  | fltEnable d k => exact execFltEnable_writes
  | fltDisable d k => exact execFltDisable_writes
  | fltClearAll d => exact execFltClearAll_writes
  | fltRead d k => exact execFltRead_writes
  | devOpen d => exact execDevOpen_writes
  | devBegin d => exact execDevBegin_writes
  | setBaudrate d => exact execSetBaudrate_writes
  | devClose d => exact execDevClose_writes
  | write d => exact execWrite_writes
  | availableForWrite d => exact execAvailableForWrite_writes
  | available d => exact execAvailable_writes
  | peek d => exact execPeek_writes
  | read d => exact execRead_writes
  | getError d => exact execGetError_writes
  | irqRx d => exact execIrqRx_writes
  | irqTx d => exact execIrqTx_writes

/-! ## Whole steps -/

theorem portAccess_writes {a : PortAccess} (h : s.Writes i t) : s.Answers i (portAccess a t) := by
  rcases portAccess_cases a t with e | e | ⟨u, _, stored, e⟩ | ⟨v, _, _, e⟩ <;> rw [e]
  · exact .fault _
  · exact .next (h.raise _ _)
  · refine .next ?_
    rcases portWrite_cases t (a.addr - t.cfg.canqBase) a.value with w | ⟨_, _, w⟩ | ⟨_, _, _, w⟩ <;> cases w ▸ stored
    · exact h.control rfl rfl rfl rfl rfl (List.Subset.refl _)
    · exact h.control rfl rfl rfl rfl rfl (List.Subset.refl _)
  · exact .next (h.control rfl rfl rfl rfl rfl (List.Subset.refl _))

theorem hostStep_writes : s.Answers i (hostStep s) := by
  unfold hostStep
  split
  · exact .next refl
  · exact portAccess_writes (refl.control rfl rfl rfl rfl rfl (List.Subset.refl _))
  · exact .next (refl.control rfl rfl rfl rfl rfl (List.Subset.refl _))

theorem busComplete_writes {b : Nat} : s.Writes i (busComplete b s) := .ite (refl.setController ..) refl

theorem deliver_writes (h : s.Writes i t) {b : Nat} {f : Frame} : s.Writes i (t.deliver b f) :=
  .ite (h.setController ..) (.ite (h.afterDraw.setController ..) h.afterDraw)

theorem busArrive_writes {b : Nat} : s.Writes i (busArrive b s) := by
  have drawn : s.Writes i s.afterFrame := refl.afterDraw.afterDraw.afterDraw.afterDraw
  exact .ite (.ite (deliver_writes drawn) drawn) refl

/-- The step of `s` is one of instruction `i`: `APP` takes the next step of the command `CMD` holds, or an engine takes one of
its handler (R60). -/
def State.Runs (s : State) (i : Instr) : Prop :=
  (s.choose = .app ∧ s.cur ≠ none ∧ decode s.cmd = .ok i) ∨
  ∃ h : Handler, (s.choose = .enter h ∨ s.choose = .resume h) ∧ i = h.instr

/-- A step makes the writes of the instruction it is a step of, or writes with no instruction's permission: a step of the host
or of `BUS[b]`, a command word that selects no row, or a schedule's entry that passes. -/
theorem step_writes (h : step s = .next t) : ∃ i : Option Instr, s.afterChoice.Writes i t ∧ ∀ j ∈ i, s.Runs j := by
  have unowned (w : s.afterChoice.Writes none t) : ∃ i : Option Instr, s.afterChoice.Writes i t ∧ ∀ j ∈ i, s.Runs j :=
    ⟨none, w, fun _ hj => nomatch hj⟩
  have owned {j : Instr} (e : exec j s.afterChoice = .next t) (r : s.Runs j) :
      ∃ i : Option Instr, s.afterChoice.Writes i t ∧ ∀ j ∈ i, s.Runs j :=
    ⟨some j, exec_writes e, fun _ hj => Option.mem_some.1 hj ▸ r⟩
  rcases step_cases s with ⟨_, e⟩ | ⟨_, _, e⟩ | ⟨_, _, e⟩ <;> rw [e] at h
  · cases h
  · cases chosen : s.choose with
    | app =>
      rw [chosen] at h
      cases busy : s.afterChoice.busy with
      | false => exact unowned (hostStep_writes t (by simpa [runEvent, busy] using h))
      | true =>
        have cur : s.cur ≠ none := by simpa [State.busy, Option.isSome_iff_ne_none] using busy
        simp only [runEvent, busy, if_true, commandStep, afterChoice_cmd] at h
        split at h
        · exact owned h (.inl ⟨chosen, cur, ‹_›⟩)
        · cases h
          exact unowned ended
    | port => exact unowned (hostStep_writes t (by rwa [chosen] at h))
    | enter g => exact owned (by rwa [chosen] at h) (.inr ⟨g, .inl chosen, rfl⟩)
    | resume g => exact owned (by rwa [chosen] at h) (.inr ⟨g, .inr chosen, rfl⟩)
    | complete b =>
      rw [chosen] at h
      cases h
      exact unowned busComplete_writes
    | arrive b =>
      rw [chosen] at h
      cases h
      exact unowned busArrive_writes
  · cases h
    exact unowned refl

theorem rowOf_ne_irq {opc d k : Nat} {ring : RingSel} {j : Instr} (h : rowOf opc d ring k = some j) :
    j.format ≠ .irq := by
  unfold rowOf at h
  split at h <;> cases h <;> simp [Instr.format]

/-- No command word selects an engine handler (R71). -/
theorem decode_ne_irq {w : Word} {j : Instr} (h : decode w = .ok j) : j.format ≠ .irq := by
  unfold decode at h
  split at h
  · cases h
  · rename_i row
    split at h <;> cases h
    exact rowOf_ne_irq row

namespace State.Runs

/-- An instruction that is no handler is run by `APP`. -/
theorem command {j : Instr} (h : s.Runs j) (hj : j.format ≠ .irq) :
    s.choose = .app ∧ s.cur ≠ none ∧ decode s.cmd = .ok j := by
  rcases h with h | ⟨⟨d, kind⟩, _, rfl⟩
  · exact h
  · cases kind <;> exact absurd rfl hj

/-- A handler is run by its engine. -/
theorem handler {g : Handler} (h : s.Runs g.instr) : s.choose = .enter g ∨ s.choose = .resume g := by
  rcases h with ⟨_, _, e⟩ | ⟨g', chosen, e⟩
  · obtain ⟨d, kind⟩ := g
    cases kind <;> exact absurd rfl (decode_ne_irq e)
  · obtain ⟨⟨d, kind⟩, ⟨d', kind'⟩⟩ := g, g'
    cases kind <;> cases kind' <;> cases e <;> exact chosen

end State.Runs
end Machine
end Sys2Proof
end

section
/-!
SUPPORT. What a sequence of writes keeps, or changes with permission: one induction over the six kinds of write for each
table.
-/

namespace Sys2Proof
namespace Machine

variable {s t : State} {i : Option Instr}

/-! ## The permissions compose: each speaks of the value written alone -/

/-- A value that stands or is permitted, twice. -/
theorem kept_or_trans {α : Type} {C : α → Prop} {x y z : α} (h : y = x ∨ C y) (g : z = y ∨ C z) : z = x ∨ C z :=
  g.elim (fun e => e ▸ h) .inr

theorem State.DeviceWrite.refl {d : Nat} {x : DevState} : s.DeviceWrite i d x x :=
  ⟨fun _ => id, .inl rfl, .inl rfl, .inl rfl⟩

theorem State.DeviceWrite.trans {d : Nat} {x y z : DevState} (h : s.DeviceWrite i d x y) (g : s.DeviceWrite i d y z) :
    s.DeviceWrite i d x z :=
  ⟨fun sel hx => g.slot sel (h.slot sel hx), kept_or_trans h.st g.st, kept_or_trans h.rxIe g.rxIe,
    kept_or_trans h.txIe g.txIe⟩

theorem State.BlockWrite.refl {b : Nat} {x : BlockState} : s.BlockWrite i b x x := ⟨.inl ⟨rfl, rfl⟩, .inl rfl⟩

theorem State.BlockWrite.trans {b : Nat} {x y z : BlockState} (h : s.BlockWrite i b x y) (g : s.BlockWrite i b y z) :
    s.BlockWrite i b x z := by
  refine ⟨?_, g.owner.elim (fun e => e ▸ h.owner) .inr⟩
  rcases g.registry with ⟨hc, ho⟩ | g
  · rw [hc, ho]
    exact h.registry
  · exact .inr g

namespace State.Writes

/-! ## The tables and their sizes -/

theorem cfg_eq (h : s.Writes i t) : t.cfg = s.cfg := by
  induction h with
  | refl => rfl
  | control _ cfg _ _ _ _ _ ih => exact cfg.trans ih
  | device _ _ ih => exact ih
  | block _ _ ih => exact ih
  | array _ _ ih => exact ih
  | pin _ _ ih => exact (driveTrx_cfg ..).trans ih

theorem dev_length (h : s.Writes i t) : t.dev.length = s.dev.length := by
  induction h with
  | refl => rfl
  | control _ _ dev _ _ _ _ ih => rw [dev, ih]
  | device _ _ ih => exact (setDevice_dev_length ..).trans ih
  | block _ _ ih => exact ih
  | array _ _ ih => exact ih
  | pin _ _ ih => rw [driveTrx_dev, ih]

theorem blk_length (h : s.Writes i t) : t.blk.length = s.blk.length := by
  induction h with
  | refl => rfl
  | control _ _ _ blk _ _ _ ih => rw [blk, ih]
  | device _ _ ih => exact ih
  | block _ _ ih => exact (setBlock_blk_length ..).trans ih
  | array _ _ ih => exact ih
  | pin _ _ ih => rw [driveTrx_blk, ih]

theorem flt_length (h : s.Writes i t) : t.flt.length = s.flt.length := by
  induction h with
  | refl => rfl
  | control _ _ _ _ flt _ _ ih => rw [flt, ih]
  | device _ _ ih => exact ih
  | block _ _ ih => exact ih
  | array _ _ ih => exact (setArray_flt_length ..).trans ih
  | pin _ _ ih => rw [driveTrx_flt, ih]

/-- Each array keeps its number of banks, and its `WP` unless it is 1 afterwards. -/
theorem array_kept (h : s.Writes i t) (a : Nat) :
    (t.array a).banks.length = (s.array a).banks.length ∧ ((t.array a).wp = (s.array a).wp ∨ (t.array a).wp = true) := by
  induction h with
  | refl => exact ⟨rfl, .inl rfl⟩
  | control _ _ _ _ flt _ _ ih => rwa [array_eq_of_flt flt]
  | device _ _ ih => exact ih
  | block _ _ ih => exact ih
  | @array t _ a' x ok ih =>
    by_cases ha : a' = a
    · subst ha
      rcases Nat.lt_or_ge a' t.flt.length with hl | hl
      · rw [array_setArray_self _ _ hl]
        exact ⟨ok.banks.trans ih.1, .inr ok.wp⟩
      · rwa [setArray_of_length_le _ _ hl]
    · rwa [array_setArray_ne _ _ ha]
  | pin _ _ ih => rwa [array_eq_of_flt (driveTrx_flt ..)]

theorem pins_wf (h : s.Writes i t) (wf : Table.wf s.pins) : Table.wf t.pins := by
  induction h with
  | refl => exact wf
  | control _ _ _ _ _ pins _ ih => rwa [pins]
  | device _ _ ih => exact ih
  | block _ _ ih => exact ih
  | array _ _ ih => exact ih
  | @pin t _ d v _ ih =>
    unfold State.driveTrx
    split
    · exact ih
    · exact Table.wf_write _ _ ih

/-- A recorded fault stays (R35). -/
theorem faults_subset (h : s.Writes i t) : s.faults ⊆ t.faults := by
  induction h with
  | refl => exact List.Subset.refl _
  | control _ _ _ _ _ _ faults ih => exact List.Subset.trans ih faults
  | device _ _ ih => exact ih
  | block _ _ ih => exact ih
  | array _ _ ih => exact ih
  | pin _ _ ih => rwa [driveTrx_faults]

/-! ## Devices, blocks and pins -/

theorem device_write (h : s.Writes i t) (d : Nat) : s.DeviceWrite i d (s.device d) (t.device d) := by
  induction h with
  | refl => exact .refl
  | control _ _ dev _ _ _ _ ih => rwa [device_eq_of_dev dev]
  | @device t _ e x ok ih =>
    by_cases he : e = d
    · subst he
      rcases Nat.lt_or_ge e t.dev.length with hl | hl
      · rw [device_setDevice_self _ _ hl]
        exact ih.trans ok
      · rwa [setDevice_of_length_le _ _ hl]
    · rwa [device_setDevice_ne _ _ he]
  | block _ _ ih => exact ih
  | array _ _ ih => exact ih
  | pin _ _ ih => rwa [device_eq_of_dev (driveTrx_dev ..)]

theorem block_write (h : s.Writes i t) (b : Nat) : s.BlockWrite i b (s.block b) (t.block b) := by
  induction h with
  | refl => exact .refl
  | control _ _ _ blk _ _ _ ih => rwa [block_eq_of_blk blk]
  | device _ _ ih => exact ih
  | @block t _ c x ok ih =>
    by_cases hc : c = b
    · subst hc
      rcases Nat.lt_or_ge c t.blk.length with hl | hl
      · rw [block_setBlock_self _ _ hl]
        exact ih.trans ok
      · rwa [show t.setBlock c x = t by simp [State.setBlock, List.set_eq_of_length_le hl]]
    · rwa [block_setBlock_ne _ _ hc]
  | array _ _ ih => exact ih
  | pin _ _ ih => rwa [block_eq_of_blk (driveTrx_blk ..)]

/-- `TRX[e]` stands, or is the level some device with that pin was permitted to drive (R31, R204). -/
theorem trx_kept_or_driven (h : s.Writes i t) (e : Nat) :
    t.trx e = s.trx e ∨ ((s.desc e).trxPin ≠ none ∧
      ∃ d v, s.PinWrite i d v ∧ (s.desc d).trxPin = (s.desc e).trxPin ∧ t.trx e = if v = true then .high else .low) := by
  induction h with
  | refl => exact .inl rfl
  | @control t u _ cfg _ _ _ pins _ ih =>
    rwa [show u.trx e = t.trx e by simp only [State.trx, State.pinLevel, desc_eq_of_cfg cfg, pins]]
  | device _ _ ih => exact ih
  | block _ _ ih => exact ih
  | array _ _ ih => exact ih
  | @pin t h d v ok ih =>
    have driven := (driveTrx_pinDriven t d v).2 e
    rw [desc_eq_of_cfg h.cfg_eq, desc_eq_of_cfg h.cfg_eq] at driven
    rw [driven]
    split
    · rename_i shared
      obtain ⟨hasPin, same⟩ := shared
      exact .inr ⟨same ▸ hasPin, d, v, ok, same.symm, rfl⟩
    · exact ih

end State.Writes
end Machine

open Machine

/-- Settles O56: the writes of a step keep every size, put `WP` back to 1, and keep slot RAM and pin levels canonical. -/
theorem stepKeepsStorage : Obligations.StepKeepsStorage := by
  intro s t step
  obtain ⟨i, w, -⟩ := step_writes step
  have cfg : t.cfg = s.cfg := w.cfg_eq.trans (afterChoice_cfg s)
  have array (a : Nat) := w.array_kept a
  simp only [afterChoice_array] at array
  refine ⟨cfg, fun ⟨dev, blk, flt, banks⟩ => ?_, fun _ locked a ha => ?_, fun wf ref => ?_, fun wf => ?_⟩
  · rw [State.Sized, cfg, w.dev_length, w.blk_length, w.flt_length, afterChoice_dev, afterChoice_blk, afterChoice_flt]
    exact ⟨dev, blk, flt, fun a ha => (array a).1.trans (banks a ha)⟩
  · exact (array a).2.elim (fun same => same.trans (locked a (cfg ▸ ha))) id
  · exact (w.device_write ref.dev).slot ref.sel (by simpa [State.ring] using wf ref)
  · exact w.pins_wf (by simpa using wf)

/-- Settles O47: a change is permitted to one of the three commands (`LifeWrite`, `ClaimWrite`, `PinWrite`), and a command is
run by `APP`. -/
theorem deviceStateWriters : Obligations.DeviceStateWriters := by
  intro s t step
  obtain ⟨i, w, runs⟩ := step_writes step
  have app {j : Instr} (hi : i = some j) (hj : j.format ≠ .irq) := (runs j hi).command hj
  refine ⟨fun d ne => ?_, fun b ne => ?_, fun e ne => ?_⟩
  · have life := (w.device_write d).st
    simp only [State.LifeWrite, afterChoice_device, afterChoice_cfg] at life
    obtain ⟨present, ⟨hi, l⟩ | ⟨hi, configured, l⟩ | ⟨hi, l⟩⟩ := life.resolve_left ne
    · obtain ⟨chosen, cur, cmd⟩ := app hi nofun
      exact ⟨chosen, cur, present, .inl ⟨cmd, l⟩⟩
    · obtain ⟨chosen, cur, cmd⟩ := app hi nofun
      exact ⟨chosen, cur, present, .inr (.inl ⟨cmd, configured, l⟩)⟩
    · obtain ⟨chosen, cur, cmd⟩ := app hi nofun
      exact ⟨chosen, cur, present, .inr (.inr ⟨cmd, l⟩)⟩
  · obtain ⟨registry, owner⟩ := w.block_write b
    simp only [State.ClaimWrite, afterChoice_block, afterChoice_cfg, afterChoice_blockOf] at registry owner
    have changed : ¬ ((t.block b).claim = (s.block b).claim ∧ (t.block b).owner = (s.block b).owner) := by tauto
    obtain ⟨d, present, hb, ⟨hi, free, claimed, owned⟩ | ⟨hi, released⟩⟩ := registry.resolve_left changed
    · obtain ⟨chosen, cur, cmd⟩ := app hi nofun
      exact ⟨chosen, cur, d, present, hb, .inl ⟨cmd, free, claimed, owned⟩⟩
    · obtain ⟨chosen, cur, cmd⟩ := app hi nofun
      have stale := owner.resolve_right (by simp [hi])
      exact ⟨chosen, cur, d, present, hb, .inr ⟨cmd, released, stale⟩⟩
  · have trx := w.trx_kept_or_driven e
    simp only [State.PinWrite, afterChoice_trx, afterChoice_desc, afterChoice_cfg] at trx
    obtain ⟨hasPin, d, v, ⟨present, ⟨hi, hv⟩ | ⟨hi, hv⟩⟩, shared, level⟩ := trx.resolve_left ne
    · obtain ⟨chosen, cur, cmd⟩ := app hi nofun
      exact ⟨chosen, cur, hasPin, d, present, shared, .inl ⟨cmd, by rw [level, hv]⟩⟩
    · obtain ⟨chosen, cur, cmd⟩ := app hi nofun
      refine ⟨chosen, cur, hasPin, d, present, shared, .inr ⟨cmd, ?_⟩⟩
      rw [level, hv]
      cases (s.desc d).trxAwake <;> rfl

end Sys2Proof
end

section
/-!
SUPPORT. The remaining rules about the whole machine and its reset: interrupt enables (spec/10_state.md R27), faults (R35),
acceptance (spec/43_filter.md R169), and the reset table (R41).
-/

namespace Sys2Proof

open Machine

/-- Settles O48: a change is permitted to an instruction of the device (`RxWrite`, `TxWrite`), and a handler is run by its
engine. -/
theorem enableWriters : Obligations.EnableWriters := by
  intro s t d step
  obtain ⟨i, w, runs⟩ := step_writes step
  have app {j : Instr} (hi : i = some j) (hj : j.format ≠ .irq) := (runs j hi).command hj
  have engine {g : Handler} (hi : i = some g.instr) := (runs g.instr hi).handler
  have rx := (w.device_write d).rxIe
  have tx := (w.device_write d).txIe
  simp only [RxWrite, State.TxWrite, afterChoice_device, afterChoice_cur, afterChoice_ring] at rx tx
  refine ⟨fun ne => ?rxChanged, fun off on => ?rxSet, fun ne => ?txChanged, fun off on => ?txSet⟩
  case rxChanged =>
    obtain ⟨hi | hi | hi, cleared⟩ | hi | hi | hi := rx.resolve_left ne
    case inl.inr.inr => exact .inr ⟨engine (g := ⟨d, .rx⟩) hi, cleared⟩
    all_goals
      obtain ⟨chosen, cur, cmd⟩ := app hi nofun
      exact .inl ⟨chosen, cur, by simp [cmd]⟩
  case rxSet =>
    obtain ⟨_, cleared⟩ | hi | hi | hi := rx.resolve_left (by simp [off, on])
    case inl => simp [on] at cleared
    all_goals
      obtain ⟨chosen, _, cmd⟩ := app hi nofun
      exact ⟨chosen, by simp [cmd]⟩
  case txChanged =>
    obtain ⟨hi | hi | hi, _⟩ | ⟨hi, _⟩ | ⟨hi, cleared, empty⟩ := tx.resolve_left ne
    case inr.inr => exact .inr ⟨engine (g := ⟨d, .tx⟩) hi, cleared, empty⟩
    all_goals
      obtain ⟨chosen, cur, cmd⟩ := app hi nofun
      exact .inl ⟨chosen, cur, by simp [cmd]⟩
  case txSet =>
    obtain ⟨_, cleared⟩ | ⟨hi, pushed⟩ | ⟨_, cleared, _⟩ := tx.resolve_left (by simp [off, on])
    · simp [on] at cleared
    · obtain ⟨chosen, _, cmd⟩ := app hi nofun
      exact ⟨chosen, cmd, pushed⟩
    · simp [on] at cleared

/-- Settles O52: writes only add faults, and every guard of R60 asks that no fault has stopped the agent. -/
theorem faultsAreForever : Obligations.FaultsAreForever := by
  refine ⟨fun s t step r hr => ?_, fun s => ⟨fun stopped => ?_, fun h stopped => ?_⟩⟩
  · obtain ⟨i, w, -⟩ := step_writes step
    exact w.faults_subset (by simpa using hr)
  · simp [State.enabled, State.appFree, stopped]
  · simp [State.enabled, State.entryEnabled, State.resumeEnabled, stopped]

namespace Machine

/-! ## Acceptance (R169) -/

/-- A bank that matches is enabled (R168). -/
theorem Bank.fa_of_accepts {x : Bank} {f : Frame} (h : x.accepts f = true) : x.fa = true := by
  unfold Bank.accepts at h
  exact (Bool.and_eq_true_iff.1 h).1

theorem deviceAccepts_iff (s : State) (d : Nat) (f : Frame) : s.deviceAccepts d f = true ↔
    ∃ k, (s.desc d).firstBank ≤ k ∧ k ≤ (s.desc d).maxBank ∧ (s.bank (s.farrayOf d) k).accepts f = true := by
  simp only [State.deviceAccepts, List.any_eq_true, List.mem_range'_1, and_assoc]
  exact exists_congr fun k => and_congr_right fun _ => and_congr_left fun _ => by omega

/-- Bit `k` of `ENMASK[d]` is `FA` of an owned bank (R30). -/
theorem enmask_iff (s : State) (d k : Nat) : s.enmask d k = true ↔
    ((s.desc d).firstBank ≤ k ∧ k ≤ (s.desc d).maxBank) ∧ (s.bank (s.farrayOf d) k).fa = true := by
  simp [State.enmask, State.ownsBank]

/-- Devices of one block have one array and one range (R8(e)), so they accept the same frames. -/
theorem deviceAccepts_eq_of_block {s : State} (h : s.cfg.admitted = true) {d e : Nat} (hd : d < s.cfg.numDev)
    (he : e < s.cfg.numDev) (hb : s.blockOf e = s.blockOf d) (f : Frame) : s.deviceAccepts e f = s.deviceAccepts d f := by
  obtain ⟨_, own, pairs⟩ := s.cfg.admitted_iff.1 h
  obtain ⟨⟨her, _⟩, _⟩ := (s.cfg.rangeOk_iff _).1 (own e he)
  obtain ⟨⟨hdr, _⟩, _⟩ := (s.cfg.rangeOk_iff _).1 (own d hd)
  obtain ⟨_, _, sameBlock, _⟩ := (s.cfg.pairOk_iff her hdr).1 (pairs e he d hd)
  obtain ⟨farray, _, firstBank, maxBank⟩ := sameBlock hb
  simp only [State.deviceAccepts, State.farrayOf, State.desc, farray, firstBank, maxBank]

/-- A block accepts what any of its devices accepts (R169). -/
theorem accepts_blockOf {s : State} (h : s.cfg.admitted = true) {d : Nat} (hd : d < s.cfg.numDev) (f : Frame) :
    s.accepts (s.blockOf d) f = s.deviceAccepts d f := by
  unfold State.accepts
  split
  · rename_i e found
    exact deviceAccepts_eq_of_block h hd (List.mem_range.1 (List.mem_of_find?_eq_some found))
      (by simpa using List.find?_some found) f
  · rename_i missing
    simpa using List.find?_eq_none.1 missing d (List.mem_range.2 hd)

/-- With `ENMASK[d]` 0 the block of the device accepts nothing. -/
theorem accepts_of_enmask_zero {s : State} (h : s.cfg.admitted = true) {d : Nat} (hd : d < s.cfg.numDev)
    (off : ∀ k, s.enmask d k = false) (f : Frame) : s.accepts (s.blockOf d) f = false := by
  rw [accepts_blockOf h hd, ← Bool.not_eq_true, deviceAccepts_iff]
  rintro ⟨k, lo, hi, matched⟩
  have on := (enmask_iff s d k).2 ⟨⟨lo, hi⟩, Bank.fa_of_accepts matched⟩
  simp [off k] at on

/-- An arrival at a block that accepts nothing leaves every block as it was (R241). -/
theorem busArrive_blk_of_not_accepts {s : State} {b : Nat} (h : ∀ f, s.accepts b f = false) :
    (busArrive b s).blk = s.blk := by
  unfold busArrive
  split
  · simp [h, State.afterFrame]
  · rfl

/-! ## Reset (R41) -/

theorem device_resetOf (c : Config) (d : Nat) : (State.resetOf c).device d = DevState.reset := by
  simp only [State.device, State.resetOf, List.getD_eq_getElem?_getD, List.getElem?_map]
  cases c.desc[d]? <;> rfl

theorem block_resetOf (c : Config) (b : Nat) : (State.resetOf c).block b = BlockState.reset := by
  simp only [State.block, State.resetOf, List.getD_eq_getElem?_getD, List.getElem?_replicate]
  split <;> rfl

theorem array_resetOf (c : Config) (a : Nat) :
    (State.resetOf c).array a = { banks := List.replicate (c.numBanks a) Bank.reset, wp := true } := by
  simp only [State.array, State.resetOf, Config.numBanks, List.getD_eq_getElem?_getD, List.getElem?_map]
  cases c.farrays[a]? <;> rfl

theorem bank_resetOf (c : Config) (a k : Nat) : (State.resetOf c).bank a k = Bank.reset := by
  simp only [State.bank, array_resetOf, FilterArray.bank, List.getD_eq_getElem?_getD, List.getElem?_replicate]
  split <;> rfl

theorem ring_resetOf (c : Config) (ref : RingRef) : (State.resetOf c).ring ref = Ring.unallocated := by
  rw [State.ring, device_resetOf]
  cases ref.sel <;> rfl

theorem status_resetOf (c : Config) : (State.resetOf c).status = 0 := by
  show 0#23 ++ BitVec.ofBool false ++ StatusCode.ok.byte = 0
  decide

theorem trx_resetOf (c : Config) (d : Nat) : (State.resetOf c).trx d = .z := by
  unfold State.trx
  split <;> rfl

theorem Words8.get_zero (i : Nat) : Words8.zero.get i = 0 := by
  unfold Words8.get
  split <;> rfl

theorem Ring.unallocated_ok : Ring.unallocated.Ok := by
  refine ⟨by decide, by decide, by decide, List.Pairwise.nil, nofun, fun i hi => ?_⟩
  exact absurd hi (Nat.not_lt_zero i)

theorem DevState.reset_ok : DevState.reset.Ok :=
  ⟨Ring.unallocated_ok, Ring.unallocated_ok, fun _ => ⟨rfl, rfl⟩, fun h => absurd rfl h, fun _ => ⟨rfl, rfl⟩⟩

theorem sized_resetOf (c : Config) : (State.resetOf c).Sized := by
  refine ⟨by simp [State.resetOf, Config.numDev], by simp [State.resetOf],
    by simp [State.resetOf, Config.numFarrays], fun a _ => ?_⟩
  rw [array_resetOf]
  exact List.length_replicate

/-- The reset state of an admitted configuration meets the invariant: nothing is claimed, enabled, stored or in progress. -/
theorem inv_resetOf {c : Config} (h : c.admitted = true) : (State.resetOf c).Inv where
  admitted := h
  sized := sized_resetOf c
  registry d _ := by simp [device_resetOf, block_resetOf, DevState.reset, BlockState.reset]
  locked a _ := by rw [array_resetOf]
  devices d _ := by rw [device_resetOf]; exact DevState.reset_ok
  blocks b _ := by simp [block_resetOf, BlockState.reset]
  banks d _ _ k _ _ := bank_resetOf ..
  command := trivial
  handlers := nofun
  nesting := List.Pairwise.nil
  mask d _ h := nomatch h
  pins := ⟨List.Pairwise.nil, nofun⟩
  faults := nofun

end Machine

/-- Settles O31: a block accepts what each of its devices accepts (`accepts_blockOf`), and a bank that matches is enabled. -/
theorem blockAcceptance : Obligations.BlockAcceptance := by
  refine ⟨enmask_iff, fun s d f h hd => ⟨?_, fun off => ?_⟩⟩
  · rw [accepts_blockOf h hd, deviceAccepts_iff]
  · have nothing := accepts_of_enmask_zero h hd off
    exact ⟨nothing f, busArrive_blk_of_not_accepts nothing⟩

/-- Settles O54: the tables of the reset state, entry by entry. -/
theorem resetValues : Obligations.ResetValues := by
  intro c
  refine ⟨rfl, rfl, status_resetOf c, fun i => ⟨Words8.get_zero i, Words8.get_zero i⟩, rfl, rfl, rfl,
    fun d _ => ?_, fun b _ => ?_, fun a _ => ?_, fun d => ?_⟩
  · rw [device_resetOf]
    refine ⟨rfl, rfl, rfl, rfl, rfl, rfl, trx_resetOf c d, fun sel => ?_⟩
    rw [ring_resetOf]
    exact ⟨rfl, rfl, rfl, fun _ => rfl⟩
  · rw [block_resetOf]
    exact ⟨rfl, rfl, rfl, rfl⟩
  · rw [array_resetOf]
    exact ⟨rfl, List.length_replicate, fun k => bank_resetOf c a k⟩
  · simp [State.irqRxLine, State.irqTxLine, device_resetOf, DevState.reset]

/-- Settles O55: `inv_resetOf`; that RC is admitted is computed. -/
theorem resetMeetsInvariant : Obligations.ResetMeetsInvariant := ⟨fun _ => inv_resetOf, by decide⟩

end Sys2Proof
end

section
/-!
SUPPORT. Slot RAM in the words of spec/20_memory.md R53: when an access is in its contract, and what a word load gives.
-/

namespace Sys2Proof
namespace Machine

/-- Four bytes put together little-endian weigh `256^k` each (R55). -/
theorem toNat_word_of_bytes (b0 b1 b2 b3 : Byte) :
    (b3 ++ b2 ++ b1 ++ b0).toNat = b0.toNat + 256 * b1.toNat + 65536 * b2.toNat + 16777216 * b3.toNat := by
  rw [BitVec.toNat_append, BitVec.toNat_append, BitVec.toNat_append, ← Nat.shiftLeft_add_eq_or_of_lt b0.isLt,
    ← Nat.shiftLeft_add_eq_or_of_lt b1.isLt, ← Nat.shiftLeft_add_eq_or_of_lt b2.isLt]
  simp only [Nat.shiftLeft_eq]
  omega

theorem Memory.readWord_of_bytes {m : Memory} {a : Nat} {b0 b1 b2 b3 : Byte} (h0 : Memory.read m a = some b0)
    (h1 : Memory.read m (a + 1) = some b1) (h2 : Memory.read m (a + 2) = some b2)
    (h3 : Memory.read m (a + 3) = some b3) : Memory.readWord m a = some (b3 ++ b2 ++ b1 ++ b0) := by
  simp [Memory.readWord, h0, h1, h2, h3]

/-- A word with a value has four written bytes. -/
theorem Memory.read_isSome_of_readWord {m : Memory} {a : Nat} {w : Word} (h : Memory.readWord m a = some w) {k : Nat}
    (hk : k < 4) : (Memory.read m (a + k)).isSome = true := by
  unfold Memory.readWord at h
  split at h
  · interval_cases k <;> simp [*]
  · cases h

theorem Memory.readWord_of_unwritten {m : Memory} {a k : Nat} (hk : k < 4) (h : Memory.read m (a + k) = none) :
    Memory.readWord m a = none := by
  refine Option.eq_none_iff_forall_ne_some.2 fun w hw => ?_
  have written := Memory.read_isSome_of_readWord hw hk
  simp [h] at written

theorem Ring.offsetOk_iff (r : Ring) (a : Nat) : r.offsetOk a = true ↔ a % 4 = 0 ∧ a + 4 ≤ 16 * r.cap := by
  simp [Ring.offsetOk]

theorem Ring.memWrite_of_not_offsetOk {r : Ring} {a : Nat} (v : Word) (h : ¬ r.offsetOk a = true) :
    r.memWrite a v = none := if_neg h

theorem Ring.memRead_of_not_offsetOk {r : Ring} {a : Nat} (h : ¬ r.offsetOk a = true) :
    r.memRead a = .error .contract := if_neg h

theorem Ring.memRead_of_readWord {r : Ring} {a : Nat} {w : Word} (ok : r.offsetOk a = true)
    (h : Memory.readWord r.slot a = some w) : r.memRead a = .ok w := by
  simp [Ring.memRead, ok, h]

theorem Ring.memRead_of_unwritten {r : Ring} {a : Nat} (ok : r.offsetOk a = true)
    (h : Memory.readWord r.slot a = none) : r.memRead a = .error (.unwritten a) := by
  simp [Ring.memRead, ok, h]

end Machine

open Machine

/-- Settles O16: inside its contract (`Ring.offsetOk_iff`) an access is one of the word in slot RAM, whose bytes a store
leaves as the laws of memory say. -/
theorem slotWords : Obligations.SlotWords := by
  intro r a
  rw [← Ring.offsetOk_iff]
  refine ⟨fun bad => ⟨Ring.memRead_of_not_offsetOk bad, fun v => Ring.memWrite_of_not_offsetOk v bad⟩,
    fun aligned inside => ?_⟩
  have ok := (r.offsetOk_iff a).2 ⟨aligned, inside⟩
  refine ⟨fun v => ?store, fun b0 b1 b2 b3 h0 h1 h2 h3 => ?load, fun ⟨k, hk, unwritten⟩ => ?unwritten⟩
  case store =>
    exact ⟨_, Ring.memWrite_eq v ok, Ring.memRead_of_readWord ok (Memory.readWord_writeWord_self ..), rfl,
      fun k hk => Memory.read_writeWord _ _ _ hk, fun c hc => Memory.read_writeWord_ne _ _ hc⟩
  case load =>
    exact ⟨_, Ring.memRead_of_readWord ok (Memory.readWord_of_bytes h0 h1 h2 h3), toNat_word_of_bytes ..⟩
  case unwritten => exact Ring.memRead_of_unwritten ok (Memory.readWord_of_unwritten hk unwritten)

end Sys2Proof
end

section
/-!
SUPPORT. Who may step (spec/20_memory.md R60): the lines and the conditions of each event in the rule's words, and the event
a step runs.
-/

namespace Sys2Proof
namespace Machine

variable {s : State} {e : Event} {rest : List Event}

/-! ## The conditions of each event -/

theorem busy_iff (s : State) : s.busy = true ↔ s.cur ≠ none := Option.isSome_iff_ne_none

theorem irqRxLine_iff (s : State) (d : Nat) : s.irqRxLine d = true ↔
    (s.device d).st = .running ∧ (s.device d).rxIe = true ∧ (s.block (s.blockOf d)).rxfifo ≠ [] := by
  simp [State.irqRxLine, and_assoc]

theorem irqTxLine_iff (s : State) (d : Nat) : s.irqTxLine d = true ↔
    (s.device d).st = .running ∧ (s.device d).txIe = true ∧ (s.block (s.blockOf d)).mbox.length < s.cfg.mboxCount := by
  simp [State.irqTxLine, and_assoc]

theorem pending_iff (s : State) (h : Handler) : s.pending h = true ↔
    h.dev < s.cfg.numDev ∧ s.line h = true ∧ s.isActive h = false := by
  simp [State.pending, and_assoc]

theorem mem_handlers_iff (s : State) (h : Handler) : h ∈ s.handlers ↔ h.dev < s.cfg.numDev := by
  obtain ⟨d, kind⟩ := h
  cases kind <;> simp [State.handlers]

/-- R60(b). -/
theorem entryEnabled_iff (s : State) (h : Handler) : s.entryEnabled h = true ↔
    s.pending h = true ∧ s.stopped (.engine h) = false ∧ (∀ r ∈ s.active, s.prio h < s.prio r.handler) ∧
    ∀ g : Handler, s.pending g = true → s.prio h ≤ s.prio g := by
  have inConfig (g : Handler) (hg : s.pending g = true) : g ∈ s.handlers :=
    (mem_handlers_iff s g).2 ((pending_iff s g).1 hg).1
  simp only [State.entryEnabled, Bool.and_eq_true, Bool.not_eq_true', List.all_eq_true, decide_eq_true_eq,
    Bool.or_eq_true, ← Bool.not_eq_true, ← imp_iff_not_or, and_assoc]
  exact and_congr_right fun _ => and_congr_right fun _ => and_congr_right fun _ =>
    ⟨fun least g hg => least g (inConfig g hg) hg, fun least g _ => least g⟩

/-- R60(c). -/
theorem resumeEnabled_iff (s : State) (h : Handler) : s.resumeEnabled h = true ↔
    s.isActive h = true ∧ s.stopped (.engine h) = false ∧ ∀ r ∈ s.active, s.prio h ≤ s.prio r.handler := by
  simp [State.resumeEnabled, and_assoc]

/-- R60(d). -/
theorem appFree_iff (s : State) : s.appFree = true ↔ s.active = [] ∧ s.stopped .app = false := by
  simp [State.appFree]

theorem enabled_app_iff (s : State) : s.enabled .app = true ↔
    s.active = [] ∧ s.stopped .app = false ∧ (s.cur ≠ none ∨ s.host ≠ []) := by
  simp [State.enabled, appFree_iff, busy_iff, and_assoc]

theorem enabled_port_iff (s : State) : s.enabled .port = true ↔
    s.active = [] ∧ s.stopped .app = false ∧ s.cur ≠ none ∧ s.host ≠ [] := by
  simp [State.enabled, appFree_iff, busy_iff, and_assoc]

/-! ## The event that runs -/

theorem afterChoice_enabled (s : State) (e : Event) : s.afterChoice.enabled e = s.enabled e := by
  unfold State.afterChoice
  split <;> cases e <;> rfl

/-- `BUS[0]` exists in every admitted configuration and may always step. -/
theorem complete_zero_mem_enabledEvents (h : s.cfg.admitted = true) : .complete 0 ∈ s.events.filter s.enabled := by
  obtain ⟨ranges, _, _⟩ := s.cfg.admitted_iff.1 h
  obtain ⟨_, _, blocks, _⟩ := s.cfg.inRange_iff.1 ranges
  simp [State.events, State.enabled]
  omega

/-- A free choice is one of the enabled events. -/
theorem enabled_choose_of_free (h : s.cfg.admitted = true) (free : s.sched = []) : s.enabled s.choose = true := by
  have pos := List.length_pos_of_mem (complete_zero_mem_enabledEvents h)
  have chosen : s.choose ∈ s.events.filter s.enabled := by
    simp only [State.choose, free]
    rw [List.getD_eq_getElem _ _ (Nat.mod_lt _ pos)]
    exact List.getElem_mem _
  exact List.of_mem_filter chosen

/-- A scheduled event that is enabled is the one that runs. -/
theorem step_of_scheduled (h : s.cfg.admitted = true) (sched : s.sched = e :: rest) (enabled : s.enabled e = true) :
    step s = runEvent e { s with sched := rest } := by
  rw [step, if_pos h, choose_cons sched, takeEvent, afterChoice_enabled, if_pos enabled, afterChoice_cons sched]

/-! ## What the chosen event runs -/

/-- The step of a command in progress runs the instruction its word decodes to (R72). -/
theorem runEvent_app_of_decode {i : Instr} (cur : s.cur ≠ none) (h : decode s.cmd = .ok i) :
    runEvent .app s = exec i s := by
  simp [runEvent, (busy_iff s).2 cur, commandStep, h]

theorem decode_of_decodeTableWord {nbits w : Nat} {i : Instr} (h : decodeTableWord nbits w = some i) :
    decode (tableWord nbits w) = .ok i := by
  unfold decodeTableWord at h
  split at h <;> cases h
  assumption

/-- Where a command word is placed, `APP` may step: no handler is active and no fault of `APP` is recorded. -/
theorem placeWord_enabled_app (s : State) (w : Word) : (s.placeWord w).enabled .app = true :=
  (enabled_app_iff _).2 ⟨rfl, by simp [State.placeWord, State.stopped], .inl nofun⟩

end Machine

open Machine

/-- Settles O5: each condition of R60 is read off its definition, and the choice is `enabled_choose_of_free` or
`step_of_scheduled`. -/
theorem whoMayStep : Obligations.WhoMayStep := by
  intro s
  refine ⟨irqRxLine_iff s, irqTxLine_iff s, fun d => ⟨rfl, rfl⟩, fun h => ?enter, resumeEnabled_iff s, enabled_app_iff s,
    enabled_port_iff s, fun b => ⟨decide_eq_true_iff, decide_eq_true_iff⟩, enabled_choose_of_free,
    fun e rest => step_of_scheduled⟩
  case enter =>
    refine (entryEnabled_iff s h).trans ?_
    simp only [pending_iff, and_imp]

/-- Settles O4: the scheduled event runs (`step_of_scheduled`), and it is a step of the decoded instruction or of the
handler. -/
theorem stepRunsInstruction : Obligations.StepRunsInstruction := by
  refine ⟨fun s rest i admitted sched active running cur word => ?command, fun s nbits w i admitted word => ?placed,
    fun s rest h admitted => ⟨step_of_scheduled admitted, step_of_scheduled admitted⟩⟩
  case command =>
    rw [step_of_scheduled admitted sched ((enabled_app_iff s).2 ⟨active, running, .inl cur⟩)]
    exact runEvent_app_of_decode cur word
  case placed =>
    rw [State.withFetchWord,
      step_of_scheduled (s := s.placeWord (tableWord nbits w)) admitted rfl (placeWord_enabled_app s _)]
    exact runEvent_app_of_decode nofun (decode_of_decodeTableWord word)

end Sys2Proof
end

section
/-!
SUPPORT. The host port (spec/20_memory.md R51, R52, R58): what each permitted access reads and writes, and the host program's
queue (R60(d), spec/30_encoding.md R87).
-/

namespace Sys2Proof
namespace Machine

variable {s : State}

/-! ## Registers -/

theorem Words8.get_set_self (w : Words8) (v : Word) {i : Nat} (h : i < 8) : (w.set v i).get i = v := by
  interval_cases i <;> rfl

theorem Words8.get_set_ne (w : Words8) (v : Word) {i j : Nat} (h : j ≠ i) : (w.set v i).get j = w.get j := by
  unfold Words8.set
  split
  case h_9 => rfl
  all_goals
    unfold Words8.get
    split <;> simp_all

/-- `STATUS`: the code in 7:0, `BUSY` in 8, 0 above (R40). -/
theorem toNat_status (s : State) : s.status.toNat = s.code.byte.toNat + 256 * (if s.cur = none then 0 else 1) := by
  rw [State.status, BitVec.toNat_append, BitVec.toNat_append, ← Nat.shiftLeft_add_eq_or_of_lt s.code.byte.isLt]
  cases h : s.cur <;> simp [State.busy, h, Nat.add_comm]

theorem portRead_arg (s : State) {i : Nat} (h : i < 8) : s.portRead (0x10 + 4 * i) = some (s.arg.get i) := by
  have beyond : 0x10 + 4 * i ≠ 4 := by omega
  have inside : 0x10 + 4 * i < 0x30 := by omega
  simp [State.portRead, beyond, inside]

theorem portRead_res {i : Nat} (h : i < 8) (idle : s.cur = none) : s.portRead (0x30 + 4 * i) = some (s.res.get i) := by
  have beyond : 0x30 + 4 * i ≠ 4 ∧ ¬ 0x30 + 4 * i < 0x30 := by omega
  have inside : 0x30 + 4 * i < 0x50 := by omega
  simp [State.portRead, beyond, inside, State.busy, idle]

theorem portWrite_cmd (v : Word) (idle : s.cur = none) :
    s.portWrite 0 v = some { s with cmd := v, cur := some .start } := by
  simp [State.portWrite, State.busy, idle]

theorem portWrite_arg (v : Word) {i : Nat} (h : i < 8) (idle : s.cur = none) :
    s.portWrite (0x10 + 4 * i) v = some { s with arg := s.arg.set v i } := by
  have inside : 0x10 + 4 * i < 0x30 := by omega
  simp [State.portWrite, State.busy, idle, inside]

/-! ## Accesses at a word of the window -/

section Access

variable {a : PortAccess} {off : Nat}

theorem portAccess_load {v : Word} (addr : a.addr = s.cfg.canqBase + off) (inside : off < 0x100) (width : a.width = 32)
    (aligned : off % 4 = 0) (load : a.write = false) (h : s.portRead off = some v) :
    portAccess a s = .next { s with readData := v } := by
  have window : ¬ (a.addr < s.cfg.canqBase ∨ s.cfg.canqBase + 0x100 ≤ a.addr) := by omega
  have offset : a.addr - s.cfg.canqBase = off := by omega
  simp [portAccess, window, offset, width, aligned, load, h]

theorem portAccess_store {t : State} (addr : a.addr = s.cfg.canqBase + off) (inside : off < 0x100) (width : a.width = 32)
    (aligned : off % 4 = 0) (store : a.write = true) (h : s.portWrite off a.value = some t) :
    portAccess a s = .next t := by
  have window : ¬ (a.addr < s.cfg.canqBase ∨ s.cfg.canqBase + 0x100 ≤ a.addr) := by omega
  have offset : a.addr - s.cfg.canqBase = off := by omega
  simp [portAccess, window, offset, width, aligned, store, h]

end Access

/-! ## The host program -/

theorem hostStep_access {a : PortAccess} {ops : List HostOp} (h : s.host = .access a :: ops) :
    hostStep s = portAccess a { s with host := ops } := by
  simp [hostStep, h]

theorem hostStep_poll {ops : List HostOp} (h : s.host = .poll :: ops) :
    hostStep s = .next { s with readData := s.status, host := if s.cur = none then ops else s.host } := by
  simp only [hostStep, h]
  cases cur : s.cur <;> simp [State.busy, cur]

/-- `APP` takes the host program's step by its event where it is idle, by `port` where a command is in progress. -/
theorem step_host {rest : List Event} (admitted : s.cfg.admitted = true) (active : s.active = [])
    (running : s.stopped .app = false) (host : s.host ≠ [])
    (h : (s.cur = none ∧ s.sched = .app :: rest) ∨ (s.cur ≠ none ∧ s.sched = .port :: rest)) :
    step s = hostStep { s with sched := rest } := by
  rcases h with ⟨idle, sched⟩ | ⟨busy, sched⟩
  · rw [step_of_scheduled admitted sched ((enabled_app_iff s).2 ⟨active, running, .inr host⟩)]
    simp [runEvent, State.busy, idle]
  · exact step_of_scheduled admitted sched ((enabled_port_iff s).2 ⟨active, running, busy, host⟩)

end Machine

open Machine

/-- Settles O7: each access is one `portRead` or `portWrite` of its register, and the host program's step is `step_host`. -/
theorem portRegisters : Obligations.PortRegisters := by
  refine ⟨fun s a off addr inside width => ⟨fun load => ?loads, fun store idle => ?stores⟩, by decide,
    fun s rest ops admitted active running turn => ⟨fun a host => ?access, fun host => ?poll⟩⟩
  case loads =>
    refine ⟨?_, ?_, ?_, ?_⟩
    · rintro rfl
      exact portAccess_load addr inside width rfl load rfl
    · rintro rfl
      exact ⟨_, portAccess_load addr inside width rfl load rfl, toNat_status s⟩
    · rintro i hi rfl
      exact portAccess_load addr inside width (by omega) load (portRead_arg s hi)
    · rintro i hi rfl idle
      exact portAccess_load addr inside width (by omega) load (portRead_res hi idle)
  case stores =>
    constructor
    · rintro rfl
      exact portAccess_store addr inside width rfl store (portWrite_cmd _ idle)
    · rintro i hi rfl
      exact ⟨_, portAccess_store addr inside width (by omega) store (portWrite_arg _ hi idle),
        Words8.get_set_self _ _ hi, fun j _ hj => Words8.get_set_ne _ _ hj, rfl⟩
  case access =>
    rw [step_host admitted active running (by simp [host]) turn]
    exact hostStep_access host
  case poll =>
    rw [step_host admitted active running (by simp [host]) turn]
    exact ⟨_, toNat_status s, hostStep_poll host⟩

end Sys2Proof
end

section
/-!
SUPPORT. Which operations record no model fault (spec/60_exceptions.md R265): all but a ring access outside what the views of
`State.ViewOk` allow.
-/

namespace Sys2Proof
namespace Machine

variable {s t u : State} {d k : Nat} {a : Agent} {ref : RingRef}

/-- The result is a next state with no fault recorded. -/
def State.Quiet (s : State) (r : Result) : Prop := ∃ t, r = .next t ∧ t.faults = s.faults

theorem quiet_next (h : t.faults = s.faults) : s.Quiet (.next t) := ⟨t, rfl, h⟩

theorem quiet_single (start : s.pos = .start) (h : t.faults = s.faults) : s.Quiet (single s t) :=
  ⟨t, single_of_start t start, h⟩

/-! ## Checks -/

theorem ite_faults {c : Prop} [Decidable c] (h : t.faults = s.faults) (g : u.faults = s.faults) :
    (if c then t else u).faults = s.faults := by
  split
  · exact h
  · exact g

theorem onDevice_faults (h : t.faults = s.faults) : (onDevice d s t).faults = s.faults := ite_faults h rfl

theorem whenRunning_faults (h : t.faults = s.faults) : (whenRunning d s t).faults = s.faults :=
  onDevice_faults (ite_faults h rfl)

theorem pre_faults (h : t.faults = s.faults) : (pre d k s t).faults = s.faults := whenRunning_faults (ite_faults h rfl)

/-! ## Ring primitives -/

theorem Ring.cap_ne_zero_of_not_full {r : Ring} (h : r.isFull = false) : r.cap ≠ 0 :=
  fun h0 => by simp [Ring.isFull, h0] at h

theorem Ring.cap_ne_zero_of_not_empty {r : Ring} (h : r.isEmpty = false) : r.cap ≠ 0 :=
  fun h0 => by simp [Ring.isEmpty, h0] at h

theorem Ring.Ok.head_lt {r : Ring} (ok : r.Ok) (allocated : r.cap ≠ 0) : r.head < r.cap := by
  obtain ⟨_, head, _⟩ := ok
  omega

theorem Ring.Ok.tail_lt {r : Ring} (ok : r.Ok) (allocated : r.cap ≠ 0) : r.tail < r.cap := by
  obtain ⟨_, _, tail, _⟩ := ok
  omega

/-- The oldest slot of a ring that is not empty is written (R62). -/
theorem Ring.Ok.tail_written {r : Ring} (ok : r.Ok) (h : r.isEmpty = false) : r.SlotWritten r.tail := by
  have allocated := Ring.cap_ne_zero_of_not_empty h
  have tail := ok.tail_lt allocated
  have counted : 0 < r.count := by
    refine Nat.pos_of_ne_zero fun h0 => ?_
    have empty := (Ring.isEmpty_iff_count (ok.head_lt allocated) tail).2 h0
    simp [h] at empty
  obtain ⟨_, _, _, _, _, written⟩ := ok
  simpa [Nat.mod_eq_of_lt tail] using written 0 counted

theorem pushCheckStep_faults {f : Frame} {p : Pos} : (pushCheckStep a ref f p s).faults = s.faults := by
  simp [pushCheckStep_eq]

/-- A slot of a ring that is not full is filled within the contract of `MemWrite`. -/
theorem pushFillStep_faults {h : Nat} {f : Frame} (ok : (s.ring ref).Ok)
    (view : (s.ring ref).isFull = false ∧ h = (s.ring ref).head) : (pushFillStep a ref h f s).faults = s.faults := by
  obtain ⟨room, rfl⟩ := view
  simp [pushFillStep_of a f (ok.head_lt (Ring.cap_ne_zero_of_not_full room))]

theorem pushPublishStep_faults {h : Nat} {p : Pos} : (pushPublishStep a ref h p s).faults = s.faults := by
  simp [pushPublishStep]

theorem peekCheckStep_faults {p : Pos} : (peekCheckStep a ref p s).faults = s.faults := by
  simp [peekCheckStep_eq]

/-- The oldest slot of a ring that is not empty reads without a fault (R62, R266). -/
theorem peekReadStep_faults {n : Nat} {after : Frame → Pos} (ok : (s.ring ref).Ok)
    (view : (s.ring ref).isEmpty = false ∧ n = (s.ring ref).tail) :
    (peekReadStep a ref n after s).faults = s.faults := by
  obtain ⟨occupied, rfl⟩ := view
  obtain ⟨w, _, e⟩ :=
    peekReadStep_of a after (ok.tail_lt (Ring.cap_ne_zero_of_not_empty occupied)) (ok.tail_written occupied)
  simp [e]

theorem popCheckStep_faults {x : Option Frame} {p : Pos} : (popCheckStep a ref x p s).faults = s.faults := by
  simp [popCheckStep_eq]

theorem popAdvanceStep_faults {n : Nat} {p : Pos} : (popAdvanceStep a ref n p s).faults = s.faults := by
  simp [popAdvanceStep]

theorem finishRead_faults {x : Option Frame} : (finishRead d x s).faults = s.faults := by
  cases x <;> rfl

/-! ## External primitives and lifecycle -/

theorem hwTransmit_faults {b : Nat} {f : Frame} {ok : Bool} (e : s.hwTransmit b f = (ok, t)) :
    t.faults = s.faults := by
  rcases hwTransmit_cases s b f with ⟨_, _, h⟩ | ⟨_, _, _, h⟩ | ⟨_, _, _, h⟩ | ⟨_, h⟩ <;> cases h ▸ e <;> rfl

theorem hwInit_faults {b base remap : Nat} {w : Word} {ok : Bool} (e : s.hwInit b base remap w = (ok, t)) :
    t.faults = s.faults := by
  cases h : drawnBool s.nextDraw
  · cases hwInit_of_false b base remap w h ▸ e
    rfl
  · cases hwInit_of_true b base remap w h ▸ e
    rfl

theorem hwSetMode_faults {b : Nat} {m : HwMode} {ok : Bool} (e : s.hwSetMode b m = (ok, t)) : t.faults = s.faults := by
  cases h : drawnBool s.nextDraw
  · cases hwSetMode_of_false b m h ▸ e
    rfl
  · cases hwSetMode_of_true b m h ▸ e
    rfl

theorem startDevice_faults (s : State) (d : Nat) (timing baud : Word) :
    (s.startDevice d timing baud).faults = s.faults := by
  simp [State.startDevice]

theorem releaseDevice_faults (s : State) (d : Nat) : (s.releaseDevice d).faults = s.faults := by
  simp [State.releaseDevice]

theorem loseTiming_faults (s : State) (d : Nat) : (s.loseTiming d).faults = s.faults := rfl

theorem reprogram_faults (s : State) (d : Nat) (timing baud : Word) :
    (s.reprogram d timing baud).faults = s.faults := by
  unfold State.reprogram
  split
  case h_1 e => simp [loseTiming_faults, hwSetMode_faults e]
  case h_2 e =>
    split
    case h_1 e' => simp [loseTiming_faults, hwSetMode_faults e', State.envSetTiming, hwSetMode_faults e]
    case h_2 e' => simp [hwSetMode_faults e', State.envSetTiming, hwSetMode_faults e]

theorem busComplete_faults (b : Nat) (s : State) : (busComplete b s).faults = s.faults := ite_faults rfl rfl

theorem deliver_faults (s : State) (b : Nat) (f : Frame) : (s.deliver b f).faults = s.faults :=
  ite_faults rfl (ite_faults rfl rfl)

theorem busArrive_faults (b : Nat) (s : State) : (busArrive b s).faults = s.faults := by
  unfold busArrive
  exact ite_faults (ite_faults (deliver_faults ..) rfl) rfl

/-- `raise` records its fault and no other. -/
theorem mem_raise {r : FaultRecord} {f : ModelFault} (h : r ∈ (s.raise a f).faults) : r ∈ s.faults ∨ r = ⟨f, a⟩ := by
  unfold State.raise at h
  split at h
  · exact .inl h
  · simpa using h

end Machine
end Sys2Proof
end

section
/-!
SUPPORT. Each instruction at one of its steps, with the views it rests on sound, answers a next state and records no fault
(spec/60_exceptions.md R265, R266): one lemma per meaning, in the order of the opcode table.
-/

namespace Sys2Proof

/-- The commands of one atomic step. -/
def Instr.oneStep : Instr → Bool
  | .rbIsEmpty _ _ | .rbIsFull _ _ | .rbCount _ _ | .rbPush _ _ | .rbPeek _ _ | .rbPop _ _ => false
  | .write _ | .peek _ | .read _ | .irqRx _ | .irqTx _ => false
  | _ => true

namespace Machine

/-- The position is the first step of the instruction or a later one. -/
def Pos.InSteps (p : Pos) (i : Instr) : Prop := p = .start ∨ p.isStepOf i = true

/-- The first step of a command of one step is its only one. -/
theorem Pos.InSteps.start {p : Pos} {i : Instr} (h : p.InSteps i) (one : i.oneStep = true) : p = .start := by
  refine h.resolve_right fun later => ?_
  unfold Pos.isStepOf at later
  split at later <;> simp_all [Instr.oneStep]

variable {d k : Nat} {ring : RingSel} {s : State} {p : Pos}

/-! ## Ring commands -/

theorem execRbIsEmpty_quiet (pos : s.pos = p) (step : p.InSteps (.rbIsEmpty d ring)) :
    s.Quiet (execRbIsEmpty d ring s) := by
  rw [execRbIsEmpty, pos]
  cases p with
  | start => exact quiet_next (whenRunning_faults rfl)
  | query => exact quiet_next rfl
  | _ => rcases step with e | e <;> cases e

theorem execRbIsFull_quiet (pos : s.pos = p) (step : p.InSteps (.rbIsFull d ring)) :
    s.Quiet (execRbIsFull d ring s) := by
  rw [execRbIsFull, pos]
  cases p with
  | start => exact quiet_next (whenRunning_faults rfl)
  | query => exact quiet_next rfl
  | _ => rcases step with e | e <;> cases e

theorem execRbCount_quiet (pos : s.pos = p) (step : p.InSteps (.rbCount d ring)) :
    s.Quiet (execRbCount d ring s) := by
  rw [execRbCount, pos]
  cases p with
  | start => exact quiet_next (whenRunning_faults rfl)
  | query => exact quiet_next rfl
  | _ => rcases step with e | e <;> cases e

theorem execRbPush_quiet (rings : ∀ ref, (s.ring ref).Ok) (pos : s.pos = p) (step : p.InSteps (.rbPush d ring))
    (view : s.ViewOk (.rbPush d ring) p) : s.Quiet (execRbPush d ring s) := by
  rw [execRbPush, pos]
  cases p with
  | start => exact quiet_next (whenRunning_faults (ite_faults rfl (ite_faults rfl rfl)))
  | pushCheck f => exact quiet_next pushCheckStep_faults
  | pushFill h f => exact quiet_next (pushFillStep_faults (rings _) view)
  | pushPublish h => exact quiet_next pushPublishStep_faults
  | finishBool ok => exact quiet_next rfl
  | _ => rcases step with e | e <;> cases e

theorem execRbPeek_quiet (rings : ∀ ref, (s.ring ref).Ok) (pos : s.pos = p) (step : p.InSteps (.rbPeek d ring))
    (view : s.ViewOk (.rbPeek d ring) p) : s.Quiet (execRbPeek d ring s) := by
  rw [execRbPeek, pos]
  cases p with
  | start => exact quiet_next (whenRunning_faults (ite_faults rfl rfl))
  | peekCheck => exact quiet_next peekCheckStep_faults
  | peekRead n => exact quiet_next (peekReadStep_faults (rings _) view)
  | finishFrame x => cases x <;> exact quiet_next rfl
  | _ => rcases step with e | e <;> cases e

theorem execRbPop_quiet (pos : s.pos = p) (step : p.InSteps (.rbPop d ring)) : s.Quiet (execRbPop d ring s) := by
  rw [execRbPop, pos]
  cases p with
  | start => exact quiet_next (whenRunning_faults (ite_faults rfl rfl))
  | popCheck x => exact quiet_next popCheckStep_faults
  | popAdvance n x => exact quiet_next popAdvanceStep_faults
  | finishBool ok => exact quiet_next rfl
  | _ => rcases step with e | e <;> cases e

/-! ## Commands of one step -/

section OneStep

variable (start : s.pos = .start)

include start

theorem execBtSolve_quiet : s.Quiet (execBtSolve s) := by
  refine quiet_single start ?_
  split <;> rfl

theorem execFltConfigure_quiet : s.Quiet (execFltConfigure d k s) :=
  quiet_single start <| pre_faults <| ite_faults rfl rfl

theorem execFltMask32Std_quiet : s.Quiet (execFltMask32Std d k s) :=
  quiet_single start <| pre_faults <| ite_faults rfl rfl

theorem execFltMask32Ext_quiet : s.Quiet (execFltMask32Ext d k s) :=
  quiet_single start <| pre_faults <| ite_faults rfl rfl

theorem execFltList32Std_quiet : s.Quiet (execFltList32Std d k s) :=
  quiet_single start <| pre_faults <| ite_faults (ite_faults rfl rfl) rfl

theorem execFltList32Ext_quiet : s.Quiet (execFltList32Ext d k s) :=
  quiet_single start <| pre_faults <| ite_faults (ite_faults rfl rfl) rfl

theorem execFltMask16_quiet : s.Quiet (execFltMask16 d k s) :=
  quiet_single start <| pre_faults <| ite_faults rfl rfl

theorem execFltList16_quiet : s.Quiet (execFltList16 d k s) :=
  quiet_single start <| pre_faults <| ite_faults (ite_faults rfl rfl) rfl

theorem execFltAcceptAll_quiet : s.Quiet (execFltAcceptAll d s) :=
  quiet_single start <| whenRunning_faults <| ite_faults rfl <| ite_faults rfl rfl

theorem execFltEnable_quiet : s.Quiet (execFltEnable d k s) :=
  quiet_single start <| pre_faults <| ite_faults rfl rfl

theorem execFltDisable_quiet : s.Quiet (execFltDisable d k s) := quiet_single start <| pre_faults rfl

theorem execFltClearAll_quiet : s.Quiet (execFltClearAll d s) := quiet_single start <| whenRunning_faults rfl

theorem execFltRead_quiet : s.Quiet (execFltRead d k s) := quiet_single start <| pre_faults rfl

theorem execDevOpen_quiet : s.Quiet (execDevOpen d s) :=
  quiet_single start <| onDevice_faults <| ite_faults rfl <| ite_faults rfl rfl

theorem execDevBegin_quiet : s.Quiet (execDevBegin d s) := by
  refine quiet_single start <| onDevice_faults <| ite_faults rfl ?_
  rw [beginSetup_eq]
  dsimp only
  split
  · rfl
  · split
    case h_1 e => exact (finish_faults ..).trans (hwInit_faults e)
    case h_2 e => exact (finish_faults ..).trans ((startDevice_faults ..).trans (hwInit_faults e))

theorem execSetBaudrate_quiet : s.Quiet (execSetBaudrate d s) := by
  refine quiet_single start (whenRunning_faults ?_)
  split
  · rfl
  · exact reprogram_faults ..

theorem execDevClose_quiet : s.Quiet (execDevClose d s) :=
  quiet_single start <| onDevice_faults <| ite_faults rfl (releaseDevice_faults s d)

theorem execAvailableForWrite_quiet : s.Quiet (execAvailableForWrite d s) :=
  quiet_single start <| whenRunning_faults rfl

theorem execAvailable_quiet : s.Quiet (execAvailable d s) := quiet_single start <| whenRunning_faults rfl

theorem execGetError_quiet : s.Quiet (execGetError d s) := quiet_single start <| whenRunning_faults rfl

end OneStep

/-! ## `WRITE`, `PEEK`, `READ` -/

theorem execWrite_quiet (rings : ∀ ref, (s.ring ref).Ok) (pos : s.pos = p) (step : p.InSteps (.write d))
    (view : s.ViewOk (.write d) p) : s.Quiet (execWrite d s) := by
  rw [execWrite, pos]
  cases p with
  | start => exact quiet_next (whenRunning_faults (ite_faults rfl rfl))
  | testEmpty f => exact quiet_next rfl
  | direct f =>
    refine quiet_next ?_
    split
    case h_1 e => exact (goto_faults ..).trans (hwTransmit_faults e)
    case h_2 e => exact (goto_faults ..).trans (hwTransmit_faults e)
  | directDone => exact quiet_next rfl
  | noQueue => exact quiet_next rfl
  | pushCheck f => exact quiet_next pushCheckStep_faults
  | pushFill h f => exact quiet_next (pushFillStep_faults (rings _) view)
  | pushPublish h => exact quiet_next pushPublishStep_faults
  | finishBool ok => cases ok <;> exact quiet_next rfl
  | _ => rcases step with e | e <;> cases e

theorem execPeek_quiet (rings : ∀ ref, (s.ring ref).Ok) (pos : s.pos = p) (step : p.InSteps (.peek d))
    (view : s.ViewOk (.peek d) p) : s.Quiet (execPeek d s) := by
  rw [execPeek, pos]
  cases p with
  | start => exact quiet_next (whenRunning_faults rfl)
  | mask => exact quiet_next rfl
  | peekCheck => exact quiet_next peekCheckStep_faults
  | peekRead n => exact quiet_next (peekReadStep_faults (rings _) view)
  | finishFrame x => exact quiet_next finishRead_faults
  | _ => rcases step with e | e <;> cases e

theorem execRead_quiet (rings : ∀ ref, (s.ring ref).Ok) (pos : s.pos = p) (step : p.InSteps (.read d))
    (view : s.ViewOk (.read d) p) : s.Quiet (execRead d s) := by
  rw [execRead, pos]
  cases p with
  | start => exact quiet_next (whenRunning_faults rfl)
  | mask => exact quiet_next rfl
  | peekCheck => exact quiet_next peekCheckStep_faults
  | peekRead n => exact quiet_next (peekReadStep_faults (rings _) view)
  | popCheck x => exact quiet_next popCheckStep_faults
  | popAdvance n x => exact quiet_next popAdvanceStep_faults
  | finishFrame x => exact quiet_next finishRead_faults
  | _ => rcases step with e | e <;> cases e

/-! ## Every command -/

/-- A command at one of its steps, with its ring views sound, answers a next state and records no fault. -/
theorem exec_quiet {i : Instr} (command : i.format ≠ .irq) (rings : ∀ ref, (s.ring ref).Ok) (step : s.pos.InSteps i)
    (view : s.ViewOk i s.pos) : s.Quiet (exec i s) := by
  cases i with
  | rbIsEmpty d ring => exact execRbIsEmpty_quiet rfl step
  | rbIsFull d ring => exact execRbIsFull_quiet rfl step
  | rbCount d ring => exact execRbCount_quiet rfl step
  | rbPush d ring => exact execRbPush_quiet rings rfl step view
  | rbPeek d ring => exact execRbPeek_quiet rings rfl step view
  | rbPop d ring => exact execRbPop_quiet rfl step
  | btSolve => exact execBtSolve_quiet (step.start rfl)
  | fltConfigure d k => exact execFltConfigure_quiet (step.start rfl)
  | fltMask32Std d k => exact execFltMask32Std_quiet (step.start rfl)
  | fltMask32Ext d k => exact execFltMask32Ext_quiet (step.start rfl)
  | fltList32Std d k => exact execFltList32Std_quiet (step.start rfl)
  | fltList32Ext d k => exact execFltList32Ext_quiet (step.start rfl)
  | fltMask16 d k => exact execFltMask16_quiet (step.start rfl)
  | fltList16 d k => exact execFltList16_quiet (step.start rfl)
  | fltAcceptAll d => exact execFltAcceptAll_quiet (step.start rfl)
  | fltEnable d k => exact execFltEnable_quiet (step.start rfl)
  | fltDisable d k => exact execFltDisable_quiet (step.start rfl)
  | fltClearAll d => exact execFltClearAll_quiet (step.start rfl)
  | fltRead d k => exact execFltRead_quiet (step.start rfl)
  | devOpen d => exact execDevOpen_quiet (step.start rfl)
  | devBegin d => exact execDevBegin_quiet (step.start rfl)
  | setBaudrate d => exact execSetBaudrate_quiet (step.start rfl)
  | devClose d => exact execDevClose_quiet (step.start rfl)
  | write d => exact execWrite_quiet rings rfl step view
  | availableForWrite d => exact execAvailableForWrite_quiet (step.start rfl)
  | available d => exact execAvailable_quiet (step.start rfl)
  | peek d => exact execPeek_quiet rings rfl step view
  | read d => exact execRead_quiet rings rfl step view
  | getError d => exact execGetError_quiet (step.start rfl)
  | irqRx d => exact absurd rfl command
  | irqTx d => exact absurd rfl command

/-! ## The engine handlers -/

/-- The entry step of a handler records no fault. -/
theorem exec_entry_quiet {h : Handler} (entry : s.handlerPos h = none) : s.Quiet (exec h.instr s) := by
  obtain ⟨d, kind⟩ := h
  cases kind with
  | rx =>
    show s.Quiet (execIrqRx d s)
    simp only [execIrqRx, entry]
    exact quiet_next rfl
  | tx =>
    show s.Quiet (execIrqTx d s)
    simp only [execIrqTx, entry]
    exact quiet_next rfl

theorem execIrqRx_quiet (rings : ∀ ref, (s.ring ref).Ok) (pos : s.handlerPos ⟨d, .rx⟩ = some p)
    (step : p.isStepOf (.irqRx d) = true) (view : s.HandlerView ⟨d, .rx⟩ p) : s.Quiet (execIrqRx d s) := by
  simp only [execIrqRx, pos]
  cases p with
  | backPressure => exact quiet_next rfl
  | receive =>
    refine quiet_next ?_
    split
    · simp
    · rename_i noFrame
      obtain ⟨frame, _⟩ := view
      exact absurd noFrame frame
  | pushCheck f => exact quiet_next pushCheckStep_faults
  | pushFill h f => exact quiet_next (pushFillStep_faults (rings _) view)
  | pushPublish h => exact quiet_next pushPublishStep_faults
  | exit => exact quiet_next rfl
  | _ => cases step

theorem execIrqTx_quiet (rings : ∀ ref, (s.ring ref).Ok) (pos : s.handlerPos ⟨d, .tx⟩ = some p)
    (step : p.isStepOf (.irqTx d) = true) (view : s.HandlerView ⟨d, .tx⟩ p) : s.Quiet (execIrqTx d s) := by
  simp only [execIrqTx, pos]
  cases p with
  | loopTest => exact quiet_next rfl
  | peekCheck =>
    have occupied : (s.ring ⟨d, .tx⟩).isEmpty = false := view
    exact quiet_next (by simp [occupied])
  | peekRead n => exact quiet_next (peekReadStep_faults (rings _) view)
  | transmit f =>
    refine quiet_next ?_
    split
    case h_1 e => exact (goto_faults ..).trans (hwTransmit_faults e)
    case h_2 e => exact (goto_faults ..).trans (hwTransmit_faults e)
  | popCheck x => exact quiet_next popCheckStep_faults
  | popAdvance n x => exact quiet_next popAdvanceStep_faults
  | exit =>
    refine quiet_next ?_
    split <;> rfl
  | _ => cases step

/-- A handler at one of its later steps, with its views sound, answers a next state and records no fault. -/
theorem exec_handler_quiet {h : Handler} (rings : ∀ ref, (s.ring ref).Ok) (pos : s.handlerPos h = some p)
    (step : p.isStepOf h.instr = true) (view : s.HandlerView h p) : s.Quiet (exec h.instr s) := by
  obtain ⟨d, kind⟩ := h
  cases kind with
  | rx => exact execIrqRx_quiet rings pos step view
  | tx => exact execIrqTx_quiet rings pos step view

end Machine
end Sys2Proof
end

section
/-!
SUPPORT. What the invariant gives (spec/20_memory.md R62, spec/44_controller.md R203, spec/60_exceptions.md R266): progress with
no fault but `F_PORT`, and the masked window of `PEEK` and `READ`.
-/

namespace Sys2Proof
namespace Machine

variable {s : State} {i : Instr} {e : Event}

namespace State.Inv

/-- Taking a choice keeps the invariant: no part of it reads the schedule or the count of draws. -/
theorem afterChoice (h : s.Inv) : s.afterChoice.Inv := by
  unfold State.afterChoice
  split <;>
    exact ⟨h.admitted, h.sized, h.registry, h.locked, h.devices, h.blocks, h.banks, h.command, h.handlers, h.nesting,
      h.mask, h.pins, h.faults⟩

/-- Every device reads as well formed, one outside the configuration as after reset. -/
theorem device_ok (h : s.Inv) (d : Nat) : (s.device d).Ok := by
  rcases Nat.lt_or_ge d s.cfg.numDev with hd | hd
  · exact h.devices d hd
  · have outside : s.dev.length ≤ d := h.sized.1 ▸ hd
    rw [State.device, List.getD_eq_default _ _ outside]
    exact DevState.reset_ok

theorem ring_ok (h : s.Inv) (ref : RingRef) : (s.ring ref).Ok := by
  obtain ⟨rx, tx, _⟩ := h.device_ok ref.dev
  rw [State.ring]
  cases ref.sel
  · exact rx
  · exact tx

/-- Past its first step the command of `CMD` is at one of its steps, on a RUNNING device, with sound views. -/
theorem command_at (h : s.Inv) {p : Pos} (cur : s.cur = some p) (later : p ≠ .start) (word : decode s.cmd = .ok i) :
    p.isStepOf i = true ∧ i.deviceOf < s.cfg.numDev ∧ (s.device i.deviceOf).st = .running ∧ s.ViewOk i p := by
  have ok := h.command
  unfold State.CommandOk at ok
  rw [cur] at ok
  split at ok <;> simp_all

/-- The command of `CMD` is at one of its steps, with sound views. -/
theorem command_inSteps (h : s.Inv) (word : decode s.cmd = .ok i) : s.pos.InSteps i ∧ s.ViewOk i s.pos := by
  by_cases start : s.pos = .start
  · rw [start]
    exact ⟨.inl rfl, trivial⟩
  · cases cur : s.cur with
    | none => exact absurd (by simp [State.pos, cur]) start
    | some p =>
      have pos : s.pos = p := by simp [State.pos, cur]
      rw [pos] at start ⊢
      obtain ⟨step, _, _, view⟩ := h.command_at cur start word
      exact ⟨.inr step, view⟩

/-! ## Progress -/

theorem commandStep_quiet (h : s.Inv) : s.Quiet (commandStep s) := by
  unfold commandStep
  split
  · rename_i word
    obtain ⟨step, view⟩ := h.command_inSteps word
    exact exec_quiet (decode_ne_irq word) h.ring_ok step view
  · exact quiet_next rfl

theorem exec_active_quiet (h : s.Inv) {g : Handler} (active : s.isActive g = true) : s.Quiet (exec g.instr s) := by
  obtain ⟨p, pos⟩ := Option.isSome_iff_exists.1 ((isActive_iff_handlerPos s g).1 active)
  obtain ⟨r, found, rfl⟩ := Option.map_eq_some_iff.1 pos
  obtain ⟨step, _, _, view⟩ := h.handlers r (List.mem_of_find?_eq_some found)
  have handler : r.handler = g := by simpa using List.find?_some found
  rw [handler] at step view
  exact exec_handler_quiet h.ring_ok pos step view

end State.Inv

/-- The result is a next state with no new fault but `F_PORT` of `APP`. -/
def State.Proceeds (s : State) (r : Result) : Prop :=
  ∃ t, r = .next t ∧ ∀ x ∈ t.faults, x ∈ s.faults ∨ ∃ addr width, x = ⟨.port addr width, .app⟩

theorem State.Quiet.proceeds {r : Result} (h : s.Quiet r) : s.Proceeds r := by
  obtain ⟨t, e, kept⟩ := h
  exact ⟨t, e, fun x hx => .inl (kept ▸ hx)⟩

/-- A host access proceeds, or lies outside the window. -/
theorem portAccess_proceeds (a : PortAccess) (s : State) :
    s.Proceeds (portAccess a s) ∨ portAccess a s = .fault .outsideWindow := by
  rcases portAccess_cases a s with e | e | ⟨t, _, stored, e⟩ | ⟨v, _, _, e⟩ <;> rw [e]
  · exact .inr rfl
  · exact .inl ⟨_, rfl, fun x hx => (mem_raise hx).imp_right fun hx => ⟨_, _, hx⟩⟩
  · refine .inl (State.Quiet.proceeds (quiet_next ?_))
    rcases portWrite_cases s (a.addr - s.cfg.canqBase) a.value with w | ⟨_, _, w⟩ | ⟨_, _, _, w⟩ <;> cases w ▸ stored <;> rfl
  · exact .inl (State.Quiet.proceeds (quiet_next rfl))

theorem hostStep_proceeds (s : State) : s.Proceeds (hostStep s) ∨ hostStep s = .fault .outsideWindow := by
  unfold hostStep
  split
  · exact .inl (State.Quiet.proceeds (quiet_next rfl))
  · exact portAccess_proceeds _ { s with host := _ }
  · exact .inl (State.Quiet.proceeds (quiet_next rfl))

/-- An event that may be chosen proceeds, or is the host's access outside the window. -/
theorem runEvent_proceeds (h : s.Inv) (enabled : s.enabled e = true) :
    s.Proceeds (runEvent e s) ∨ (runEvent e s = .fault .outsideWindow ∧ (e = .app ∨ e = .port)) := by
  cases e with
  | app =>
    cases busy : s.busy
    · rw [show runEvent .app s = hostStep s by simp [runEvent, busy]]
      exact (hostStep_proceeds s).imp_right fun outside => ⟨outside, .inl rfl⟩
    · rw [show runEvent .app s = commandStep s by simp [runEvent, busy]]
      exact .inl h.commandStep_quiet.proceeds
  | port => exact (hostStep_proceeds s).imp_right fun outside => ⟨outside, .inr rfl⟩
  | enter g =>
    obtain ⟨pending, _⟩ := (entryEnabled_iff s g).1 enabled
    obtain ⟨_, _, inactive⟩ := (pending_iff s g).1 pending
    have entry : s.handlerPos g = none := by
      rw [← Option.not_isSome_iff_eq_none, ← isActive_iff_handlerPos, inactive]
      decide
    exact .inl (exec_entry_quiet entry).proceeds
  | resume g =>
    obtain ⟨active, _⟩ := (resumeEnabled_iff s g).1 enabled
    exact .inl (h.exec_active_quiet active).proceeds
  | complete b => exact .inl (State.Quiet.proceeds (quiet_next (busComplete_faults b s)))
  | arrive b => exact .inl (State.Quiet.proceeds (quiet_next (busArrive_faults b s)))

/-- From a state in the invariant a step proceeds, or is the host's access outside the window. -/
theorem step_proceeds (h : s.Inv) :
    s.Proceeds (step s) ∨ (step s = .fault .outsideWindow ∧ (s.choose = .app ∨ s.choose = .port)) := by
  rcases step_cases s with ⟨refused, _⟩ | ⟨_, enabled, e⟩ | ⟨_, _, e⟩
  · simp [h.admitted] at refused
  · rw [e]
    have proceeds := runEvent_proceeds h.afterChoice enabled
    rwa [State.Proceeds, afterChoice_faults] at proceeds
  · rw [e]
    exact .inl (State.Quiet.proceeds (quiet_next (afterChoice_faults s)))

/-! ## The masked window (R203(c)) -/

/-- From the masking step of `PEEK` or `READ` to its last step, the RX interrupt is masked and its handler not in progress. -/
theorem State.Inv.masked (h : s.Inv) {d : Nat} {p : Pos} (word : decode s.cmd = .ok (.peek d) ∨ decode s.cmd = .ok (.read d))
    (cur : s.cur = some p) (later : p ≠ .start) (past : p ≠ .mask) :
    (s.device d).rxIe = false ∧ s.isActive ⟨d, .rx⟩ = false := by
  have inConfig : d < s.cfg.numDev := by
    rcases word with word | word
    · exact (h.command_at cur later word).2.1
    · exact (h.command_at cur later word).2.1
  refine h.mask d inConfig ?_
  unfold State.readingMasked
  rw [cur]
  rcases word with word | word <;> split <;> simp_all

end Machine

open Machine

/-- Settles O60: `step_proceeds` and `State.Inv.masked`; a masked line is 0, so its handler is not pending, and it is not in
progress. -/
theorem invariantConsequences : Obligations.InvariantConsequences := by
  refine fun s h => ⟨step_proceeds h, fun d p word cur later past => ?_⟩
  obtain ⟨masked, inactive⟩ := h.masked word cur later past
  have line : s.irqRxLine d = false := by simp [State.irqRxLine, masked]
  refine ⟨line, ?_, ?_⟩
  · have notPending : s.pending ⟨d, .rx⟩ = false := by simp [State.pending, State.line, line]
    simp [State.enabled, State.entryEnabled, notPending]
  · simp [State.enabled, State.resumeEnabled, inactive]

end Sys2Proof
end

section
/-!
SUPPORT. The two directions of the command word (spec/30_encoding.md R70 to R73, R84): a word that passes its row's mask is put
together from its opcode and the fields its format uses; so decoding and encoding are inverse, and a reserved or unused bit
that is not 0 rejects the word.
-/

namespace Sys2Proof

/-! ## The fields of a word -/

theorem field_lt (w : Word) (lo len : Nat) : field w lo len < 2 ^ len := (w.extractLsb' lo len).isLt

theorem opcField_eq_mod (w : Word) : opcField w = w.toNat % 256 := by
  simp [opcField, field]

/-- A field put back at its position is the word under the field's mask. -/
theorem ofNat_field_shiftLeft (w : Word) (lo len : Nat) :
    BitVec.ofNat 32 (field w lo len) <<< lo = w &&& BitVec.ofNat 32 (2 ^ len - 1) <<< lo := by
  apply BitVec.eq_of_getLsbD_eq
  intro i hi
  simp only [field, BitVec.ofNat_toNat, BitVec.getLsbD_and, BitVec.getLsbD_shiftLeft, BitVec.getLsbD_setWidth,
    BitVec.getLsbD_extractLsb', BitVec.getLsbD_ofNat, Nat.testBit_two_pow_sub_one]
  by_cases h : lo ≤ i
  · simp [h, Nat.not_lt.2 h, hi, show i - lo < 32 by omega, Bool.and_comm]
  · simp [show i < lo by omega]

theorem ofNat_opcField (w : Word) : BitVec.ofNat 32 (opcField w) = w &&& 0xFF := by
  rw [opcField, ← BitVec.shiftLeft_zero (BitVec.ofNat 32 _)]
  exact ofNat_field_shiftLeft w 0 8

theorem ofNat_devField_shiftLeft (w : Word) : BitVec.ofNat 32 (devField w) <<< 8 = w &&& 0xF00 :=
  ofNat_field_shiftLeft w 8 4

theorem ofNat_bankField_shiftLeft (w : Word) : BitVec.ofNat 32 (bankField w) <<< 16 = w &&& 0x1F0000 :=
  ofNat_field_shiftLeft w 16 5

theorem commandWord_ringField (w : Word) : commandWord 0 0 (ringField w) 0 = w &&& 0x1000 := by
  have bit := ofNat_field_shiftLeft w 12 1
  by_cases zero : field w 12 1 = 0
  · simpa [commandWord, ringField, zero] using bit
  · have one : field w 12 1 = 1 := by
      have := field_lt w 12 1
      omega
    simpa [commandWord, ringField, one] using bit

/-- The four fields of R70, each at its position. -/
theorem commandWord_eq_or (o d : Nat) (r : RingSel) (k : Nat) : commandWord o d r k =
    BitVec.ofNat 32 o ||| BitVec.ofNat 32 d <<< 8 ||| commandWord 0 0 r 0 ||| BitVec.ofNat 32 k <<< 16 := by
  simp [commandWord]

/-! ## The fields a format uses (R71) -/

/-- `DEV` where the format uses it, else 0. -/
def Format.dev : Format → Nat → Nat
  | .cmdD, d | .cmdR, d | .cmdB, d => d
  | .cmdN, _ | .irq, _ => 0

/-- `RING` where the format uses it, else 0. -/
def Format.ring : Format → RingSel → RingSel
  | .cmdR, r => r
  | .cmdN, _ | .cmdD, _ | .cmdB, _ | .irq, _ => .rx

/-- `BANK` where the format uses it, else 0. -/
def Format.bank : Format → Nat → Nat
  | .cmdB, k => k
  | .cmdN, _ | .cmdD, _ | .cmdR, _ | .irq, _ => 0

theorem Format.dev_lt (f : Format) {d : Nat} (h : d < 16) : f.dev d < 16 := by cases f <;> simp [Format.dev, h]

theorem Format.bank_lt (f : Format) {k : Nat} (h : k < 32) : f.bank k < 32 := by cases f <;> simp [Format.bank, h]

theorem Format.ring_of_ne {f : Format} (h : f ≠ .cmdR) (r : RingSel) : f.ring r = .rx := by
  cases f <;> simp_all [Format.ring]

theorem Format.bank_of_ne {f : Format} (h : f ≠ .cmdB) (k : Nat) : f.bank k = 0 := by
  cases f <;> simp_all [Format.bank]

/-- The command word of an opcode and the fields the format uses. -/
def Format.word (f : Format) (o d : Nat) (r : RingSel) (k : Nat) : Word := commandWord o (f.dev d) (f.ring r) (f.bank k)

/-- What a format keeps of a word: the opcode and every bit outside its mask. -/
theorem Format.word_fields (f : Format) (w : Word) :
    f.word (opcField w) (devField w) (ringField w) (bankField w) = w &&& (0xFF ||| ~~~f.mask) := by
  have noRing : commandWord 0 0 .rx 0 = 0 := rfl
  rw [Format.word, commandWord_eq_or, ofNat_opcField]
  cases f <;> simp [Format.dev, Format.ring, Format.bank, Format.mask, ofNat_devField_shiftLeft,
    ofNat_bankField_shiftLeft, noRing, commandWord_ringField, ← BitVec.and_or_distrib_left]

/-- A word that passes the mask test of a format is put together from its opcode and the fields the format uses. -/
theorem Format.eq_word_of_mask {f : Format} {w : Word} (h : w &&& f.mask = BitVec.ofNat 32 (opcField w)) :
    w = f.word (opcField w) (devField w) (ringField w) (bankField w) := by
  rw [f.word_fields, BitVec.and_or_distrib_left, ← ofNat_opcField, ← h, ← BitVec.and_or_distrib_left,
    BitVec.or_not_self, BitVec.and_allOnes]

/-- The reserved bits of R84 are in the mask of every format. -/
theorem Format.mask_reserved (f : Format) : f.mask &&& 0xFFE0E000 = 0xFFE0E000 := by cases f <;> decide

/-! ## Rows (R73) -/

theorem rowOf_fields_commandWord {o d k : Nat} (r : RingSel) (ho : o < 256) (hd : d < 16) (hk : k < 32) :
    rowOf (opcField (commandWord o d r k)) (devField (commandWord o d r k)) (ringField (commandWord o d r k))
      (bankField (commandWord o d r k)) = rowOf o d r k := by
  rw [opcField_commandWord r ho hd hk, devField_commandWord r ho hd hk, ringField_commandWord r ho hd hk,
    bankField_commandWord r ho hd hk]

/-- The word of a well-formed command selects the command's row with the command's fields. -/
theorem rowOf_fields_encode {i : Instr} {w : Word} (wf : i.wf = true) (h : encode i = some w) :
    rowOf (opcField w) (devField w) (ringField w) (bankField w) = some i := by
  cases i with
  | btSolve =>
    cases h
    exact rowOf_fields_commandWord .rx (by decide) (by decide) (by decide)
  | rbIsEmpty d r | rbIsFull d r | rbCount d r | rbPush d r | rbPeek d r | rbPop d r =>
    cases h
    exact rowOf_fields_commandWord r (by decide) (of_decide_eq_true wf) (by decide)
  | fltAcceptAll d | fltClearAll d | devOpen d | devBegin d | setBaudrate d | devClose d | write d | availableForWrite d
  | available d | peek d | read d | getError d =>
    cases h
    exact rowOf_fields_commandWord .rx (by decide) (of_decide_eq_true wf) (by decide)
  | fltConfigure d k | fltMask32Std d k | fltMask32Ext d k | fltList32Std d k | fltList32Ext d k | fltMask16 d k
  | fltList16 d k | fltEnable d k | fltDisable d k | fltRead d k =>
    cases h
    obtain ⟨dev, bank⟩ := Bool.and_eq_true_iff.1 wf
    exact rowOf_fields_commandWord .rx (by decide) (of_decide_eq_true dev) (of_decide_eq_true bank)
  | irqRx d | irqTx d => cases h

/-- A row's instruction has the word of its opcode and the fields its format uses. -/
theorem encode_of_rowOf {o d k : Nat} {r : RingSel} {i : Instr} (h : rowOf o d r k = some i) :
    encode i = some (i.format.word o d r k) := by
  unfold rowOf at h
  split at h <;> cases h <;> rfl

theorem wf_of_rowOf {o d k : Nat} {r : RingSel} {i : Instr} (hd : d < 16) (hk : k < 32) (h : rowOf o d r k = some i) :
    i.wf = true := by
  unfold rowOf at h
  split at h <;> cases h <;> simp [Instr.wf, devFits, bankFits, hd, hk]

/-- The opcodes of no row (R84). -/
theorem rowOf_eq_none {o : Nat} (d : Nat) (r : RingSel) (k : Nat)
    (h : o = 0 ∨ (0x07 ≤ o ∧ o ≤ 0x0F) ∨ (0x11 ≤ o ∧ o ≤ 0x1F) ∨ (0x2C ≤ o ∧ o ≤ 0x2F) ∨ 0x3A ≤ o) :
    rowOf o d r k = none := by
  unfold rowOf
  split
  case h_30 => rfl
  all_goals omega

theorem encode_eq_none_iff (i : Instr) : encode i = none ↔ i.format = .irq := by
  cases i <;> simp [encode, Instr.format]

/-! ## The decoder (R72) -/

theorem decode_eq_ok_iff {w : Word} {i : Instr} : decode w = .ok i ↔
    rowOf (opcField w) (devField w) (ringField w) (bankField w) = some i ∧
    w &&& i.format.mask = BitVec.ofNat 32 (opcField w) := by
  unfold decode
  split
  case h_1 none => simp [none]
  case h_2 j row =>
    rw [row, Option.some.injEq]
    constructor
    · intro h
      split at h <;> cases h
      exact ⟨rfl, ‹_›⟩
    · rintro ⟨rfl, mask⟩
      exact if_pos mask

theorem decode_eq_noRow {w : Word} (h : rowOf (opcField w) (devField w) (ringField w) (bankField w) = none) :
    decode w = .error .noRow := by
  simp [decode, h]

/-- The law of each instruction's mask, for every instruction. -/
theorem mask_encode : ∀ i : Instr, Laws.Mask.Statement i
  | .rbIsEmpty d r => Laws.Mask.rbIsEmpty d r
  | .rbIsFull d r => Laws.Mask.rbIsFull d r
  | .rbCount d r => Laws.Mask.rbCount d r
  | .rbPush d r => Laws.Mask.rbPush d r
  | .rbPeek d r => Laws.Mask.rbPeek d r
  | .rbPop d r => Laws.Mask.rbPop d r
  | .btSolve => Laws.Mask.btSolve
  | .fltConfigure d k => Laws.Mask.fltConfigure d k
  | .fltMask32Std d k => Laws.Mask.fltMask32Std d k
  | .fltMask32Ext d k => Laws.Mask.fltMask32Ext d k
  | .fltList32Std d k => Laws.Mask.fltList32Std d k
  | .fltList32Ext d k => Laws.Mask.fltList32Ext d k
  | .fltMask16 d k => Laws.Mask.fltMask16 d k
  | .fltList16 d k => Laws.Mask.fltList16 d k
  | .fltAcceptAll d => Laws.Mask.fltAcceptAll d
  | .fltEnable d k => Laws.Mask.fltEnable d k
  | .fltDisable d k => Laws.Mask.fltDisable d k
  | .fltClearAll d => Laws.Mask.fltClearAll d
  | .fltRead d k => Laws.Mask.fltRead d k
  | .devOpen d => Laws.Mask.devOpen d
  | .devBegin d => Laws.Mask.devBegin d
  | .setBaudrate d => Laws.Mask.setBaudrate d
  | .devClose d => Laws.Mask.devClose d
  | .write d => Laws.Mask.write d
  | .availableForWrite d => Laws.Mask.availableForWrite d
  | .available d => Laws.Mask.available d
  | .peek d => Laws.Mask.peek d
  | .read d => Laws.Mask.read d
  | .getError d => Laws.Mask.getError d
  | .irqRx d => Laws.Mask.irqRx d
  | .irqTx d => Laws.Mask.irqTx d

theorem decode_encode {i : Instr} {w : Word} (wf : i.wf = true) (h : encode i = some w) : decode w = .ok i :=
  decode_eq_ok_iff.2 ⟨rowOf_fields_encode wf h, mask_encode i wf w h⟩

theorem encode_decode {w : Word} {i : Instr} (h : decode w = .ok i) : encode i = some w := by
  obtain ⟨row, mask⟩ := decode_eq_ok_iff.1 h
  rw [encode_of_rowOf row, ← Format.eq_word_of_mask mask]

theorem wf_of_decode {w : Word} {i : Instr} (h : decode w = .ok i) : i.wf = true :=
  wf_of_rowOf (field_lt w 8 4) (field_lt w 16 5) (decode_eq_ok_iff.1 h).1

/-- A word that decodes has 0 in the reserved bits. -/
theorem reserved_of_decode {w : Word} {i : Instr} (h : decode w = .ok i) : w &&& 0xFFE0E000 = 0 := by
  obtain ⟨_, mask⟩ := decode_eq_ok_iff.1 h
  rw [← i.format.mask_reserved, ← BitVec.and_assoc, mask, ofNat_opcField, BitVec.and_assoc]
  exact BitVec.and_zero

/-- A word that decodes has 0 in the fields its row's format does not use. -/
theorem fields_of_decode {w : Word} {i : Instr} (h : decode w = .ok i) :
    devField w = i.format.dev (devField w) ∧ ringField w = i.format.ring (ringField w) ∧
    bankField w = i.format.bank (bankField w) := by
  have opc : opcField w < 256 := field_lt w 0 8
  have dev : i.format.dev (devField w) < 16 := i.format.dev_lt (field_lt w 8 4)
  have bank : i.format.bank (bankField w) < 32 := i.format.bank_lt (field_lt w 16 5)
  have word := Format.eq_word_of_mask (decode_eq_ok_iff.1 h).2
  exact ⟨(congrArg devField word).trans (devField_commandWord _ opc dev bank),
    (congrArg ringField word).trans (ringField_commandWord _ opc dev bank),
    (congrArg bankField word).trans (bankField_commandWord _ opc dev bank)⟩

namespace Machine

/-- The first step of a command whose word is rejected (R72). -/
theorem runEvent_app_of_reject {s : State} {r : Reject} (cur : s.cur ≠ none) (h : decode s.cmd = .error r) :
    runEvent .app s = .next (s.finish .errIllegal []) := by
  simp [runEvent, (busy_iff s).2 cur, commandStep, h]

end Machine

open Machine

/-- Settles O1: the decoder run on each word. -/
theorem sampleWords : Obligations.SampleWords := by
  unfold Obligations.SampleWords
  decide

/-- Settles O2: the row and the mask of a command's word (`decode_encode`); a word that passes its row's mask is its opcode and
the fields its format uses (`encode_decode`). -/
theorem decodeEncodeAgree : Obligations.DecodeEncodeAgree :=
  ⟨fun _ _ => decode_encode, fun _ _ h => ⟨wf_of_decode h, encode_decode h⟩, encode_eq_none_iff⟩

/-- Settles O3: no row has a reserved opcode, every format's mask has the reserved bits, and a word that decodes holds only the
fields its format uses; the step is `step_of_scheduled`. -/
theorem illegalWords : Obligations.IllegalWords := by
  refine ⟨fun w opc => ?opcode, fun w reserved => ?reserved, fun w i h => ?unused,
    fun s rest r admitted sched active running cur word => ?step⟩
  case opcode =>
    rw [← opcField_eq_mod] at opc
    exact decode_eq_noRow (rowOf_eq_none _ _ _ opc)
  case reserved =>
    cases h : decode w with
    | error r => exact ⟨r, rfl⟩
    | ok i => exact absurd (reserved_of_decode h) reserved
  case unused =>
    obtain ⟨dev, ring, bank⟩ := fields_of_decode h
    exact ⟨fun other => ring.trans (Format.ring_of_ne other _), fun other => bank.trans (Format.bank_of_ne other _),
      fun cmdN => dev.trans (by rw [cmdN]; rfl), decode_ne_irq h⟩
  case step =>
    have busy : s.cur ≠ none := by simp [cur]
    rw [step_of_scheduled admitted sched ((enabled_app_iff s).2 ⟨active, running, .inl busy⟩)]
    exact runEvent_app_of_reject busy word

end Sys2Proof
end

section
/-!
SUPPORT. The checks a command makes in its first step (spec/30_encoding.md R72, spec/44_controller.md R191,
spec/60_exceptions.md R262): every command that names a device begins with the device check, and every command but `OPEN`,
`BEGIN` and `CLOSE` makes the lifecycle check next.
-/

namespace Sys2Proof

theorem Config.hasDevice_eq_false_iff (c : Config) (d : Nat) :
    c.hasDevice d = false ↔ d ≥ c.numDev ∨ (c.descOf d).present = false := by
  simp [Config.hasDevice, imp_iff_not_or]

theorem Config.lt_of_hasDevice {c : Config} {d : Nat} (h : c.hasDevice d = true) : d < c.numDev := by
  simp only [Config.hasDevice, Bool.and_eq_true, decide_eq_true_eq] at h
  exact h.1

namespace Machine

variable {s : State} {i : Instr} {d k : Nat} {ring : RingSel}

/-- The outcome is the lifecycle check of device `d` with some state behind it. -/
def State.ChecksRunning (s : State) (d : Nat) (r : Result) : Prop := ∃ t, r = .next (whenRunning d s t)

/-- The outcome is the device check of device `d` with some state behind it. -/
def State.ChecksDevice (s : State) (d : Nat) (r : Result) : Prop := ∃ t, r = .next (onDevice d s t)

/-- The lifecycle check is the device check first. -/
theorem State.ChecksRunning.checksDevice {r : Result} (h : s.ChecksRunning d r) : s.ChecksDevice d r := by
  obtain ⟨t, e⟩ := h
  exact ⟨_, e⟩

theorem State.ChecksDevice.absent {r : Result} (h : s.ChecksDevice d r) (absent : s.cfg.hasDevice d = false) :
    r = .next (s.finish .errArg []) := by
  obtain ⟨t, rfl⟩ := h
  rw [onDevice_absent t absent]

theorem State.ChecksRunning.not_running {r : Result} (h : s.ChecksRunning d r) (present : s.cfg.hasDevice d = true)
    (st : (s.device d).st ≠ .running) : r = .next (s.finish .errState []) := by
  obtain ⟨t, rfl⟩ := h
  rw [whenRunning_not t present st]

/-! ## The first step of each command -/

section FirstStep

variable (start : s.pos = .start)

include start

theorem single_checksDevice (t : State) : s.ChecksDevice d (single s (onDevice d s t)) := ⟨t, single_of_start _ start⟩

theorem single_checksRunning (t : State) : s.ChecksRunning d (single s (whenRunning d s t)) := ⟨t, single_of_start _ start⟩

theorem execRbIsEmpty_checksRunning : s.ChecksRunning d (execRbIsEmpty d ring s) := ⟨_, by rw [execRbIsEmpty, start]⟩

theorem execRbIsFull_checksRunning : s.ChecksRunning d (execRbIsFull d ring s) := ⟨_, by rw [execRbIsFull, start]⟩

theorem execRbCount_checksRunning : s.ChecksRunning d (execRbCount d ring s) := ⟨_, by rw [execRbCount, start]⟩

theorem execRbPush_checksRunning : s.ChecksRunning d (execRbPush d ring s) := ⟨_, by rw [execRbPush, start]⟩

theorem execRbPeek_checksRunning : s.ChecksRunning d (execRbPeek d ring s) := ⟨_, by rw [execRbPeek, start]⟩

theorem execRbPop_checksRunning : s.ChecksRunning d (execRbPop d ring s) := ⟨_, by rw [execRbPop, start]⟩

theorem execWrite_checksRunning : s.ChecksRunning d (execWrite d s) := ⟨_, by rw [execWrite, start]⟩

theorem execPeek_checksRunning : s.ChecksRunning d (execPeek d s) := ⟨_, by rw [execPeek, start]⟩

theorem execRead_checksRunning : s.ChecksRunning d (execRead d s) := ⟨_, by rw [execRead, start]⟩

/-- Every command but `BT_SOLVE`, `OPEN`, `BEGIN` and `CLOSE` makes the lifecycle check first (R191). -/
theorem exec_checksRunning (command : i.format ≠ .irq) (solve : i ≠ .btSolve) (devOpen : ∀ d, i ≠ .devOpen d)
    (devBegin : ∀ d, i ≠ .devBegin d) (devClose : ∀ d, i ≠ .devClose d) : s.ChecksRunning i.deviceOf (exec i s) := by
  cases i with
  | rbIsEmpty d ring => exact execRbIsEmpty_checksRunning start
  | rbIsFull d ring => exact execRbIsFull_checksRunning start
  | rbCount d ring => exact execRbCount_checksRunning start
  | rbPush d ring => exact execRbPush_checksRunning start
  | rbPeek d ring => exact execRbPeek_checksRunning start
  | rbPop d ring => exact execRbPop_checksRunning start
  | write d => exact execWrite_checksRunning start
  | peek d => exact execPeek_checksRunning start
  | read d => exact execRead_checksRunning start
  | fltConfigure d k | fltMask32Std d k | fltMask32Ext d k | fltList32Std d k | fltList32Ext d k | fltMask16 d k
  | fltList16 d k | fltAcceptAll d | fltEnable d k | fltDisable d k | fltClearAll d | fltRead d k | setBaudrate d
  | availableForWrite d | available d | getError d => exact single_checksRunning start _
  | btSolve => exact absurd rfl solve
  | devOpen d => exact absurd rfl (devOpen d)
  | devBegin d => exact absurd rfl (devBegin d)
  | devClose d => exact absurd rfl (devClose d)
  | irqRx d | irqTx d => exact absurd rfl command

/-- Every command that names a device makes the device check first (R72). -/
theorem exec_checksDevice (names : i.format = .cmdD ∨ i.format = .cmdR ∨ i.format = .cmdB) :
    s.ChecksDevice i.deviceOf (exec i s) := by
  have command : i.format ≠ .irq := by rcases names with f | f | f <;> simp [f]
  have solve : i ≠ .btSolve := by
    rintro rfl
    simp [Instr.format] at names
  cases i with
  | devOpen d | devBegin d | devClose d => exact single_checksDevice start _
  | _ => exact (exec_checksRunning start command solve nofun nofun nofun).checksDevice

/-- R193: `BEGIN` runs on a CONFIGURED device only. -/
theorem execDevBegin_not_configured (present : s.cfg.hasDevice d = true) (st : (s.device d).st ≠ .configured) :
    execDevBegin d s = .next (s.finish .errState []) := by
  rw [execDevBegin, single_of_start _ start, onDevice_of _ present, if_pos st]

/-- R195: `CLOSE` runs on an open device only. -/
theorem execDevClose_uninit (present : s.cfg.hasDevice d = true) (st : (s.device d).st = .uninit) :
    execDevClose d s = .next (s.finish .errState []) := by
  rw [execDevClose, single_of_start _ start, onDevice_of _ present, if_pos st]

/-- R192: `OPEN` with legal capacities on a claimed block. -/
theorem execDevOpen_claimed (present : s.cfg.hasDevice d = true) (claimed : (s.block (s.blockOf d)).claim = true)
    (rxCap : (s.argWord 0).toNat ∈ Config.capSetRx) (txCap : (s.argWord 1).toNat ∈ Config.capSetTx) :
    execDevOpen d s = .next (s.finish .errClaimed []) := by
  rw [execDevOpen, single_of_start _ start, onDevice_of _ present, if_neg (not_not.2 ⟨rxCap, txCap⟩), if_pos claimed]

end FirstStep

/-- The first step of a command that checks for RUNNING, as the statements have it. -/
theorem startsOnRunning (command : i.format ≠ .irq) (solve : i ≠ .btSolve) (devOpen : ∀ d, i ≠ .devOpen d)
    (devBegin : ∀ d, i ≠ .devBegin d) (devClose : ∀ d, i ≠ .devClose d) : StartsOnRunning i i.deviceOf := by
  intro s start
  have checks := exec_checksRunning start command solve devOpen devBegin devClose
  exact ⟨checks.checksDevice.absent, checks.not_running⟩

end Machine

open Machine

/-- Settles O8: the device check and the lifecycle check of every command's first step; a device out of UNINIT has claimed its
block, by the registry invariant. -/
theorem commandChecks : Obligations.CommandChecks := by
  refine fun i s start => ⟨fun names absent => ?absent, fun present => ⟨fun command solve devOpen devBegin devClose => ?running,
    ?begin, ?close, ?claimed⟩⟩
  case absent => exact (exec_checksDevice start names).absent ((s.cfg.hasDevice_eq_false_iff _).2 absent)
  case running => exact (startsOnRunning command solve devOpen devBegin devClose s start).2 present
  case begin =>
    rintro d rfl st
    exact execDevBegin_not_configured start present st
  case close =>
    rintro d rfl st
    exact execDevClose_uninit start present st
  case claimed =>
    rintro d rfl registry st rxCap txCap
    obtain ⟨claimed, _⟩ := (registry d (Config.lt_of_hasDevice present)).1 st
    exact execDevOpen_claimed start present claimed rxCap txCap

end Sys2Proof
end

section
/-!
SUPPORT. The frame words (spec/30_encoding.md R75): each word is the sum of its fields, reads back field by field, and in a valid
quadruple holds nothing but its fields.
-/

namespace Sys2Proof
namespace Machine

/-! ## The tags as bits -/

@[simp] theorem IdType.ofBit_bit (t : IdType) : IdType.ofBit t.bit = t := by cases t <;> rfl

@[simp] theorem IdType.bit_ofBit (b : Bool) : (IdType.ofBit b).bit = b := by cases b <;> rfl

theorem IdType.toNat_bit (t : IdType) : t.bit.toNat = if t = .ext then 1 else 0 := by cases t <;> rfl

theorem IdType.ofBit_eq_ext_iff (b : Bool) : IdType.ofBit b = .ext ↔ b = true := by cases b <;> simp [IdType.ofBit]

@[simp] theorem FrameKind.ofBit_bit (t : FrameKind) : FrameKind.ofBit t.bit = t := by cases t <;> rfl

@[simp] theorem FrameKind.bit_ofBit (b : Bool) : (FrameKind.ofBit b).bit = b := by cases b <;> rfl

theorem FrameKind.toNat_bit (t : FrameKind) : t.bit.toNat = if t = .remote then 1 else 0 := by cases t <;> rfl

/-! ## FW0: `id` under `ide` under `rtr` -/

/-- FW0 as the sum of its fields at their positions. -/
theorem Frame.toNat_fw0 (f : Frame) :
    f.words.fw0.toNat = f.id.toNat + 2 ^ 29 * f.ide.bit.toNat + 2 ^ 30 * f.rtr.bit.toNat := by
  rw [Frame.words, BitVec.toNat_append, BitVec.toNat_append, BitVec.toNat_append,
    ← Nat.shiftLeft_add_eq_or_of_lt f.id.isLt, ← Nat.shiftLeft_add_eq_or_of_lt (BitVec.ofBool f.ide.bit).isLt,
    ← Nat.shiftLeft_add_eq_or_of_lt (BitVec.ofBool f.rtr.bit).isLt]
  simp only [Nat.shiftLeft_eq, BitVec.toNat_ofBool, Bool.toNat_false]
  omega

theorem toNat_getLsbD (w : Word) (i : Nat) : (w.getLsbD i).toNat = w.toNat / 2 ^ i % 2 := Nat.toNat_testBit ..

theorem toNat_extractLsb'_zero (w : Word) (len : Nat) : (w.extractLsb' 0 len).toNat = w.toNat % 2 ^ len := by simp

theorem Frame.id_fw0 (f : Frame) : f.words.fw0.extractLsb' 0 29 = f.id := BitVec.extractLsb'_append_eq_right

theorem Frame.ide_fw0 (f : Frame) : f.words.fw0.getLsbD 29 = f.ide.bit := by
  have := f.id.isLt
  have := f.ide.bit.toNat_le
  rw [Bool.eq_iff_iff, ← Bool.toNat_eq_one, ← Bool.toNat_eq_one, toNat_getLsbD, f.toNat_fw0]
  omega

theorem Frame.rtr_fw0 (f : Frame) : f.words.fw0.getLsbD 30 = f.rtr.bit := by
  have := f.id.isLt
  have := f.ide.bit.toNat_le
  have := f.rtr.bit.toNat_le
  rw [Bool.eq_iff_iff, ← Bool.toNat_eq_one, ← Bool.toNat_eq_one, toNat_getLsbD, f.toNat_fw0]
  omega

theorem getLsbD_31_eq_false_iff (w : Word) : w.getLsbD 31 = false ↔ w.toNat < 2 ^ 31 := by
  have := w.isLt
  rw [← Bool.toNat_eq_zero, toNat_getLsbD]
  omega

/-- A word with bit 31 clear is the FW0 of the frame it holds. -/
theorem Frame.fw0_ofWords {w : FrameWords} (h : w.fw0.toNat < 2 ^ 31) : (Frame.ofWords w).words.fw0 = w.fw0 := by
  apply BitVec.eq_of_toNat_eq
  rw [Frame.toNat_fw0]
  simp only [Frame.ofWords, IdType.bit_ofBit, FrameKind.bit_ofBit, toNat_getLsbD, toNat_extractLsb'_zero]
  omega

/-! ## FW1: `dlc` -/

theorem Frame.toNat_fw1 (f : Frame) : f.words.fw1.toNat = f.dlc.toNat := by
  rw [Frame.words, BitVec.toNat_append, BitVec.toNat_zero, Nat.zero_shiftLeft, Nat.zero_or]

theorem Frame.dlc_fw1 (f : Frame) : f.words.fw1.extractLsb' 0 4 = f.dlc := BitVec.extractLsb'_append_eq_right

theorem Frame.fw1_ofWords {w : FrameWords} (h : w.fw1.toNat < 16) : (Frame.ofWords w).words.fw1 = w.fw1 := by
  apply BitVec.eq_of_toNat_eq
  rw [Frame.toNat_fw1]
  simpa [Frame.ofWords] using h

/-! ## FW2 and FW3: four bytes -/

theorem extractLsb'_word_of_bytes (b0 b1 b2 b3 : Byte) :
    (b3 ++ b2 ++ b1 ++ b0).extractLsb' 0 8 = b0 ∧ (b3 ++ b2 ++ b1 ++ b0).extractLsb' 8 8 = b1 ∧
    (b3 ++ b2 ++ b1 ++ b0).extractLsb' 16 8 = b2 ∧ (b3 ++ b2 ++ b1 ++ b0).extractLsb' 24 8 = b3 := by
  refine ⟨?_, ?_, ?_, ?_⟩ <;> apply BitVec.eq_of_toNat_eq <;>
    rw [BitVec.extractLsb'_toNat, Nat.shiftRight_eq_div_pow, toNat_word_of_bytes] <;> omega

theorem Frame.fw2_ofWords (w : FrameWords) : (Frame.ofWords w).words.fw2 = w.fw2 := word_of_bytes w.fw2

theorem Frame.fw3_ofWords (w : FrameWords) : (Frame.ofWords w).words.fw3 = w.fw3 := word_of_bytes w.fw3

/-! ## The round trip -/

theorem Frame.ofWords_words (f : Frame) : Frame.ofWords f.words = f := by
  obtain ⟨b0, b1, b2, b3⟩ := extractLsb'_word_of_bytes f.data.b0 f.data.b1 f.data.b2 f.data.b3
  obtain ⟨b4, b5, b6, b7⟩ := extractLsb'_word_of_bytes f.data.b4 f.data.b5 f.data.b6 f.data.b7
  rw [Frame.ofWords, f.id_fw0, f.ide_fw0, f.rtr_fw0, f.dlc_fw1, IdType.ofBit_bit, FrameKind.ofBit_bit]
  simp only [Frame.words, b0, b1, b2, b3, b4, b5, b6, b7]

/-- The four conditions of R75. -/
theorem FrameWords.valid_iff (w : FrameWords) : w.valid = true ↔
    w.fw0.toNat < 2 ^ 31 ∧ w.fw1.toNat < 16 ∧ w.fw1.toNat ≤ 8 ∧
    (w.fw0.getLsbD 29 = false → w.fw0.toNat % 2 ^ 29 ≤ 0x7FF) := by
  have reserved : w.fw1.extractLsb' 4 28 = 0 ↔ w.fw1.toNat < 16 := by
    have := w.fw1.isLt
    rw [← BitVec.toNat_inj, BitVec.extractLsb'_toNat, Nat.shiftRight_eq_div_pow, show (0 : BitVec 28).toNat = 0 from rfl]
    omega
  simp only [FrameWords.valid, Bool.and_eq_true, Bool.not_eq_true', Bool.or_eq_true, decide_eq_true_eq, reserved,
    getLsbD_31_eq_false_iff, toNat_extractLsb'_zero, and_assoc]
  refine and_congr_right fun _ => and_congr_right fun small => ?_
  rw [Nat.mod_eq_of_lt (b := 2 ^ 4) small, or_iff_not_imp_left, Bool.not_eq_true]

theorem Frame.words_ofWords {w : FrameWords} (h : w.valid = true) : (Frame.ofWords w).words = w := by
  obtain ⟨top, small, _, _⟩ := w.valid_iff.1 h
  show FrameWords.mk (Frame.ofWords w).words.fw0 (Frame.ofWords w).words.fw1 (Frame.ofWords w).words.fw2
    (Frame.ofWords w).words.fw3 = w
  rw [Frame.fw0_ofWords top, Frame.fw1_ofWords small, Frame.fw2_ofWords, Frame.fw3_ofWords]

/-- A valid quadruple holds a valid frame (R13). -/
theorem Frame.valid_ofWords {w : FrameWords} (h : w.valid = true) : (Frame.ofWords w).valid = true := by
  obtain ⟨_, small, dlc, std⟩ := w.valid_iff.1 h
  simp only [Frame.valid, Frame.ofWords, Bool.and_eq_true, Bool.or_eq_true, decide_eq_true_eq, IdType.ofBit_eq_ext_iff,
    toNat_extractLsb'_zero, or_iff_not_imp_left, Bool.not_eq_true]
  rw [Nat.mod_eq_of_lt (b := 2 ^ 4) small]
  exact ⟨dlc, std⟩

end Machine

open Machine

/-- Settles O17: the words as sums (`Frame.toNat_fw0`, `toNat_word_of_bytes`), and each field read back from its sum. -/
theorem frameLayout : Obligations.FrameLayout := by
  refine ⟨Frame.ofWords_words, FrameWords.valid_iff, fun w h => ⟨Frame.words_ofWords h, Frame.valid_ofWords h⟩,
    fun f => ⟨?_, f.toNat_fw1, toNat_word_of_bytes .., toNat_word_of_bytes ..⟩⟩
  rw [f.toNat_fw0, IdType.toNat_bit, FrameKind.toNat_bit]

end Sys2Proof
end

section
/-!
SUPPORT. What a ring holds (spec/41_ring.md R101 to R108, R116): a fill leaves the frames in it, publishing appends the frame in
slot `HEAD`, advancing removes the one in slot `TAIL`, and each keeps the ring well formed.
-/

namespace Sys2Proof
namespace Machine

/-- The ring with the frame words in slot `h`: what `Ring.fill` leaves of a slot of the ring (`Ring.fill_eq_store`). Only the
lemmas about its fields open it; it is irreducible so that Lean never compares a stored ring with the old one byte by byte. -/
@[irreducible] def Ring.store (r : Ring) (h : Nat) (w : FrameWords) : Ring := { r with slot := slotStore r.slot h w }

/-- The ring after an uninterrupted `ring_push` of the frame words (R105): slot `HEAD` filled, then `HEAD` published. -/
def Ring.push (r : Ring) (w : FrameWords) : Ring := (r.store r.head w).publish r.head

namespace Ring

variable {r : Ring} {h i : Nat} {w : FrameWords}

/-! ## The fields of a stored, a published and an advanced ring -/

theorem fill_eq_store (w : FrameWords) (slot : h < r.cap) : r.fill h w = some (r.store h w) := by
  rw [fill_eq w slot, store]

theorem store_slot : (r.store h w).slot = slotStore r.slot h w := by rw [store]
@[simp] theorem store_cap : (r.store h w).cap = r.cap := by rw [store]
@[simp] theorem store_head : (r.store h w).head = r.head := by rw [store]
@[simp] theorem store_tail : (r.store h w).tail = r.tail := by rw [store]
@[simp] theorem store_count : (r.store h w).count = r.count := by simp [count]
@[simp] theorem store_isFull : (r.store h w).isFull = r.isFull := by simp [isFull]
@[simp] theorem publish_readSlot : (r.publish h).readSlot i = r.readSlot i := readSlot_congr rfl fun _ _ => rfl
@[simp] theorem advance_readSlot : (r.advance h).readSlot i = r.readSlot i := readSlot_congr rfl fun _ _ => rfl

theorem store_readSlot_self (slot : h < r.cap) : (r.store h w).readSlot h = .ok w := by
  rw [store]
  exact readSlot_slotStore w slot

/-- Storing in slot `h` leaves every byte outside it alone. -/
theorem read_store_ne {a : Nat} (outside : a < 16 * h ∨ 16 * h + 16 ≤ a) :
    Memory.read (r.store h w).slot a = Memory.read r.slot a := by
  rw [store_slot, read_slotStore_ne _ _ outside]

theorem store_readSlot_ne (other : i ≠ h) : (r.store h w).readSlot i = r.readSlot i :=
  readSlot_congr store_cap fun _ _ => read_store_ne (by omega)

@[simp] theorem push_cap : (r.push w).cap = r.cap := store_cap
@[simp] theorem push_tail : (r.push w).tail = r.tail := store_tail
theorem push_head : (r.push w).head = (r.head + 1) % r.cap := by simp [push, publish]

theorem push_readSlot_head (slot : r.head < r.cap) : (r.push w).readSlot r.head = .ok w := by
  rw [push, publish_readSlot, store_readSlot_self slot]

/-- A push leaves every byte outside slot `HEAD` alone. -/
theorem read_push_ne {a : Nat} (outside : a < 16 * r.head ∨ 16 * r.head + 16 ≤ a) :
    Memory.read (r.push w).slot a = Memory.read r.slot a := read_store_ne outside

/-- A push changes `HEAD` and the slot RAM only. -/
theorem push_frame : { r.push w with head := r.head, slot := r.slot } = r := by simp

/-! ## Formulas (R102 to R104) -/

theorem isEmpty_iff (r : Ring) : r.isEmpty = true ↔ r.cap = 0 ∨ r.head = r.tail := by
  simp [isEmpty]

theorem isFull_iff (r : Ring) : r.isFull = true ↔ r.cap = 0 ∨ (r.head + 1) % r.cap = r.tail := by
  simp [isFull]

theorem queries_of_cap_eq_zero (allocated : r.cap = 0) :
    r.isEmpty = true ∧ r.isFull = true ∧ r.count = 0 ∧ r.space = 0 := by
  simp [isEmpty, isFull, count, space, allocated]

theorem space_eq (allocated : r.cap ≠ 0) : r.space = r.cap - 1 - r.count := if_neg allocated

/-! ## Allocation (R101) -/

theorem alloc_count (cap : Nat) : (alloc cap).count = 0 := by
  simp [count, alloc]

theorem alloc_isEmpty (cap : Nat) : (alloc cap).isEmpty = true := (isEmpty_iff _).2 (.inr rfl)

theorem alloc_space (cap : Nat) : (alloc cap).space = cap - 1 := by
  rw [space, alloc_count]
  show (if cap = 0 then 0 else cap - 1 - 0) = cap - 1
  split <;> omega

theorem alloc_ok {cap : Nat} (legal : cap ∈ Config.capSetTx) : (alloc cap).Ok := by
  have index : 0 < max cap 1 := by omega
  refine ⟨legal, index, index, List.Pairwise.nil, nofun, fun i counted => ?_⟩
  rw [alloc_count] at counted
  exact absurd counted (Nat.not_lt_zero i)

/-! ## The occupied slots: from `TAIL` up to `HEAD` -/

section Indices

variable (head : r.head < r.cap) (tail : r.tail < r.cap)

include head tail

theorem tail_add_count : (r.tail + r.count) % r.cap = r.head := by
  rcases Nat.lt_or_ge r.head r.tail with before | after
  · rw [count_of_lt before tail, show r.tail + (r.head + r.cap - r.tail) = r.head + r.cap by omega, Nat.add_mod_right,
      Nat.mod_eq_of_lt head]
  · rw [count_of_le after head, Nat.add_sub_cancel' after, Nat.mod_eq_of_lt head]

/-- Slot `HEAD` is not occupied. -/
theorem tail_add_ne_head (occupied : i < r.count) : (r.tail + i) % r.cap ≠ r.head := by
  have bound : r.count < r.cap := count_lt (by omega)
  rw [← tail_add_count head tail]
  intro same
  have := (Nat.ModEq.add_left_cancel' r.tail same).eq_of_lt_of_lt (by omega) bound
  omega

/-- A fill of slot `HEAD` leaves the frames in the ring (R105). -/
theorem contents_store : (r.store r.head w).contents = r.contents := by
  rw [contents, contents, store_count, store_tail, store_cap]
  exact List.map_congr_left fun i occupied =>
    store_readSlot_ne (tail_add_ne_head head tail (List.mem_range.1 occupied))

/-- Publishing appends the frame in slot `HEAD` (R105). -/
theorem contents_publish (room : r.isFull = false) :
    (r.publish r.head).contents = r.contents ++ [r.readSlot r.head] := by
  rw [contents, count_publish head tail room, List.range_succ, List.map_append, List.map_singleton]
  simp only [publish_readSlot]
  show r.contents ++ [r.readSlot ((r.tail + r.count) % r.cap)] = _
  rw [tail_add_count head tail]

/-- Advancing removes the frame in slot `TAIL`, which is the oldest (R107). -/
theorem contents_advance (occupied : r.isEmpty = false) :
    r.contents = r.readSlot r.tail :: (r.advance r.tail).contents := by
  rw [contents, ← count_advance head tail occupied, List.range_succ_eq_map, List.map_cons, List.map_map, Nat.add_zero,
    Nat.mod_eq_of_lt tail, contents]
  refine congrArg _ (List.map_congr_left fun i _ => ?_)
  rw [advance_readSlot]
  show r.readSlot ((r.tail + (i + 1)) % r.cap) = r.readSlot (((r.tail + 1) % r.cap + i) % r.cap)
  rw [Nat.mod_add_mod, Nat.add_assoc, Nat.add_comm 1 i]

/-- A push that is not refused appends its frame (R116). -/
theorem contents_push (room : r.isFull = false) : (r.push w).contents = r.contents ++ [.ok w] := by
  have published := contents_publish (r := r.store r.head w) (by simpa using head) (by simpa using tail) (by simpa using room)
  rwa [store_head, contents_store head tail, store_readSlot_self head] at published

theorem count_push (room : r.isFull = false) : (r.push w).count = r.count + 1 := by
  have published := count_publish (r := r.store r.head w) (by simpa using head) (by simpa using tail) (by simpa using room)
  rwa [store_head, store_count] at published

end Indices

/-! ## Well-formedness -/

theorem slotWritten_store_self : (r.store h w).SlotWritten h := by
  intro j byte
  rw [store_slot]
  exact read_slotStore_isSome _ _ _ byte

theorem SlotWritten.store (written : r.SlotWritten i) : (r.store h w).SlotWritten i := by
  intro j byte
  rcases eq_or_ne i h with rfl | other
  · exact slotWritten_store_self j byte
  · rw [read_store_ne (by omega)]
    exact written j byte

/-- A fill keeps the ring well formed. -/
theorem Ok.store (ok : r.Ok) (slot : h < r.cap) : (r.store h w).Ok := by
  obtain ⟨legal, head, tail, canonical, inside, written⟩ := ok
  rw [Ok, store_cap, store_head, store_tail, store_slot, store_count]
  refine ⟨legal, head, tail, slotStore_wf h w canonical, fun c stored => ?_, fun i occupied => (written i occupied).store⟩
  rcases mem_slotStore stored with here | old
  · omega
  · exact inside c old

/-- Publishing a written slot keeps the ring well formed: the slot `HEAD` becomes the last occupied one. -/
theorem Ok.publish (ok : r.Ok) (room : r.isFull = false) (filled : r.SlotWritten r.head) : (r.publish r.head).Ok := by
  have allocated := cap_ne_zero_of_not_full room
  have head := ok.head_lt allocated
  have tail := ok.tail_lt allocated
  obtain ⟨legal, _, tail_lt, canonical, inside, written⟩ := ok
  have next : (r.head + 1) % r.cap < r.cap := Nat.mod_lt _ (by omega)
  refine ⟨legal, lt_max_of_lt_left next, tail_lt, canonical, inside, fun i occupied => ?_⟩
  rw [count_publish head tail room] at occupied
  show r.SlotWritten ((r.tail + i) % r.cap)
  rcases Nat.lt_succ_iff_lt_or_eq.1 occupied with old | rfl
  · exact written i old
  · rwa [tail_add_count head tail]

/-- A push that is not refused keeps the ring well formed. -/
theorem Ok.push (ok : r.Ok) (room : r.isFull = false) : (r.push w).Ok := by
  have head := ok.head_lt (cap_ne_zero_of_not_full room)
  have published := (ok.store (w := w) head).publish (by simpa using room) (by simpa using slotWritten_store_self)
  rwa [store_head] at published

/-- Advancing keeps the ring well formed. -/
theorem Ok.advance (ok : r.Ok) (occupied : r.isEmpty = false) : (r.advance r.tail).Ok := by
  have allocated := cap_ne_zero_of_not_empty occupied
  have counted := count_advance (ok.head_lt allocated) (ok.tail_lt allocated) occupied
  obtain ⟨legal, head, _, canonical, inside, written⟩ := ok
  have next : (r.tail + 1) % r.cap < r.cap := Nat.mod_lt _ (by omega)
  refine ⟨legal, head, lt_max_of_lt_left next, canonical, inside, fun i left => ?_⟩
  show r.SlotWritten (((r.tail + 1) % r.cap + i) % r.cap)
  rw [Nat.mod_add_mod, Nat.add_assoc, Nat.add_comm 1 i]
  exact written (i + 1) (by omega)

/-- The oldest frame of a well-formed ring that is not empty reads without a fault (R62). -/
theorem Ok.readSlot_tail (ok : r.Ok) (occupied : r.isEmpty = false) : ∃ w, r.readSlot r.tail = .ok w :=
  readSlot_ok (ok.tail_lt (cap_ne_zero_of_not_empty occupied)) (ok.tail_written occupied)

end Ring
end Machine

open Machine

/-- Settles O15: a push appends to the occupied slots (`Ring.contents_push`), a pop removes the first of them
(`Ring.contents_advance`), and both keep the ring well formed. -/
theorem ringFifo : Obligations.RingFifo := by
  refine ⟨fun r => Ring.queries_of_cap_eq_zero, fun cap legal => ⟨Ring.alloc_ok legal, Ring.alloc_count cap,
    Ring.alloc_isEmpty cap, Ring.alloc_space cap, fun _ => rfl⟩, fun r ok allocated => ?_⟩
  have head := ok.head_lt allocated.ne'
  have tail := ok.tail_lt allocated.ne'
  refine ⟨by simp [Ring.contents], Ring.count_lt allocated, Ring.isFull_iff_count head tail,
    Ring.isEmpty_iff_count head tail, Ring.space_eq allocated.ne', fun w room => ?push, fun occupied => ?pop⟩
  case push =>
    exact ⟨_, Ring.fill_eq_store w head, Ring.contents_store head tail, Ring.contents_push head tail room, ok.push room⟩
  case pop =>
    obtain ⟨w, read⟩ := ok.readSlot_tail occupied
    refine ⟨w, _, ?_, read, rfl, ok.advance occupied⟩
    rw [← read]
    exact Ring.contents_advance head tail occupied

end Sys2Proof
end

section
/-!
SUPPORT. The ring commands step by step (spec/41_ring.md R105 to R107, R110 to R115): what writing a ring leaves unchanged, and
what a command does at each of its positions.
-/

namespace Sys2Proof
namespace Machine

/-- Byte `j` of a filled slot is byte `j` of the frame words (R53, R55). -/
theorem read_slotStore (m : Memory) (h : Nat) (w : FrameWords) {j : Nat} (byte : j < 16) :
    Memory.read (slotStore m h w) (16 * h + j) = some (w.byteAt j) := by
  obtain ⟨k, i, rfl, hi⟩ : ∃ k i, j = 4 * k + i ∧ i < 4 := ⟨j / 4, j % 4, by omega, by omega⟩
  have word : (4 * k + i) / 4 = k := by omega
  have offset : (4 * k + i) % 4 = i := by omega
  have hk : k < 4 := by omega
  rw [slotStore, FrameWords.byteAt, word, offset, ← Nat.add_assoc]
  interval_cases k
  · rw [Memory.read_writeWord_ne _ _ (by omega), Memory.read_writeWord_ne _ _ (by omega),
      Memory.read_writeWord_ne _ _ (by omega)]
    exact Memory.read_writeWord _ _ _ hi
  · rw [Memory.read_writeWord_ne _ _ (by omega), Memory.read_writeWord_ne _ _ (by omega)]
    exact Memory.read_writeWord _ _ _ hi
  · rw [Memory.read_writeWord_ne _ _ (by omega)]
    exact Memory.read_writeWord _ _ _ hi
  · exact Memory.read_writeWord _ _ _ hi

variable {s : State} {d h t : Nat} {a : Agent} {ref : RingRef} {r : Ring} {f : Frame} {w : FrameWords} {p : Pos}
  {i : Instr} {sel : RingSel} {x : Option Frame}

/-! ## Writing a ring -/

theorem otherDevices_setRing : s.OtherDevices (s.setRing ⟨d, sel⟩ r) d :=
  fun _ other => device_setDevice_ne _ _ (Ne.symm other)

theorem device_setRing_self (r : Ring) (present : d < s.dev.length) :
    (s.setRing ⟨d, sel⟩ r).device d = (s.device d).setRing sel r := device_setDevice_self _ _ present

/-- Writing a ring of a device leaves all fields of every device but its rings. -/
theorem device_setRing_rings (e : Nat) :
    { (s.setRing ref r).device e with rxr := (s.device e).rxr, txr := (s.device e).txr } = s.device e := by
  obtain ⟨d, sel⟩ := ref
  rcases eq_or_ne e d with rfl | other
  · rcases Nat.lt_or_ge e s.dev.length with present | absent
    · rw [device_setRing_self r present]
      cases sel <;> rfl
    · rw [State.setRing, setDevice_of_length_le _ _ absent]
  · rw [otherDevices_setRing e other]

theorem setRing_setRing (q : Ring) (present : ref.dev < s.dev.length) :
    (s.setRing ref q).setRing ref r = s.setRing ref r := by
  obtain ⟨d, sel⟩ := ref
  rw [State.setRing, device_setRing_self q present]
  cases sel <;> simp [State.setRing, State.setDevice, DevState.setRing]

theorem State.Ready.lt_dev_length (ready : s.Ready d) (sized : s.Sized) : d < s.dev.length := by
  obtain ⟨devices, _⟩ := sized
  rw [devices]
  exact Config.lt_of_hasDevice ready.1

/-- The second step of `ring_push` (R105) seen from the whole state, for `APP` and for an engine. -/
theorem storesFrame_store (present : ref.dev < s.dev.length) :
    s.StoresFrame ((s.setRing ref ((s.ring ref).store h w)).goto a p) ref h w := by
  refine ⟨?_, ?_, ?_, ?_, ?_, fun other ne => ?others, fun e => ?devices, by cases a <;> rfl⟩
  case others => rw [ring_eq_of_dev (goto_dev ..), ring_setRing_ne _ _ (Ne.symm ne)]
  case devices => rw [device_eq_of_dev (goto_dev ..), device_setRing_rings]
  all_goals rw [ring_eq_of_dev (goto_dev ..), ring_setRing_self _ _ present]
  · rw [Ring.store_slot]
    exact fun j byte => read_slotStore _ _ _ byte
  · exact fun a outside => Ring.read_store_ne outside
  · exact Ring.store_cap
  · exact Ring.store_head
  · exact Ring.store_tail

/-! ## The position of `APP` -/

theorem pos_of_cur (cur : s.cur = some p) : s.pos = p := by rw [State.pos, cur, Option.getD_some]

@[simp] theorem goto_app_pos : (s.goto .app p).pos = p := rfl

@[simp] theorem goto_ring : (s.goto a p).ring ref = s.ring ref := ring_eq_of_dev (goto_dev ..) ref

@[simp] theorem goto_app_goto_app (p q : Pos) : (s.goto .app p).goto .app q = s.goto .app q := rfl

@[simp] theorem goto_app_setRing : (s.goto .app p).setRing ref r = (s.setRing ref r).goto .app p := rfl

@[simp] theorem goto_app_finish (c : StatusCode) (l : List Word) : (s.goto .app p).finish c l = s.finish c l := rfl

theorem whenRunning_of_ready (ready : s.Ready d) (u : State) : whenRunning d s u = u := whenRunning_of u ready.1 ready.2

/-- Filling a slot of the ring stores the frame and goes on to publish. -/
theorem pushFillStep_store (slot : h < (s.ring ref).cap) :
    pushFillStep a ref h f s = (s.setRing ref ((s.ring ref).store h f.words)).goto a (.pushPublish h) := by
  rw [pushFillStep, Ring.fill_eq_store _ slot]

/-- Reading a slot that has a value goes on with its frame. -/
theorem peekReadStep_ok {after : Frame → Pos} (read : (s.ring ref).readSlot t = .ok w) :
    peekReadStep a ref t after s = s.goto a (after (Frame.ofWords w)) := by
  rw [peekReadStep, read]

/-! ## Queries (R110 to R112) -/

theorem exec_query_start (ready : s.Ready d) (start : s.pos = .start) :
    exec (.rbIsEmpty d sel) s = .next (s.goto .app .query) ∧ exec (.rbIsFull d sel) s = .next (s.goto .app .query) ∧
    exec (.rbCount d sel) s = .next (s.goto .app .query) := by
  refine ⟨?_, ?_, ?_⟩
  · rw [exec, execRbIsEmpty, start, whenRunning_of_ready ready]
  · rw [exec, execRbIsFull, start, whenRunning_of_ready ready]
  · rw [exec, execRbCount, start, whenRunning_of_ready ready]

theorem exec_rbIsEmpty_query (pos : s.pos = .query) :
    exec (.rbIsEmpty d sel) s = .next (s.finish .ok [boolResult (s.ring ⟨d, sel⟩).isEmpty]) := by
  rw [exec, execRbIsEmpty, pos]

theorem exec_rbIsFull_query (pos : s.pos = .query) :
    exec (.rbIsFull d sel) s = .next (s.finish .ok [boolResult (s.ring ⟨d, sel⟩).isFull]) := by
  rw [exec, execRbIsFull, pos]

theorem exec_rbCount_query (pos : s.pos = .query) :
    exec (.rbCount d sel) s = .next (s.finish .ok [BitVec.ofNat 32 (s.ring ⟨d, sel⟩).count]) := by
  rw [exec, execRbCount, pos]

/-! ## `RB_PUSH` (R113) -/

theorem exec_rbPush_rx (ready : s.Ready d) (start : s.pos = .start) :
    exec (.rbPush d .rx) s = .next (s.finish .errOwner []) := by
  rw [exec, execRbPush, start, whenRunning_of_ready ready, if_pos rfl]

theorem exec_rbPush_start (ready : s.Ready d) (start : s.pos = .start) : exec (.rbPush d .tx) s =
    .next (if s.argFrame.valid then s.goto .app (.pushCheck (Frame.ofWords s.argFrame)) else s.finish .errArg []) := by
  rw [exec, execRbPush, start, whenRunning_of_ready ready, if_neg nofun]

theorem exec_rbPush_pushCheck (pos : s.pos = .pushCheck f) : exec (.rbPush d sel) s =
    .next (s.goto .app (if (s.ring ⟨d, .tx⟩).isFull then .finishBool false else .pushFill (s.ring ⟨d, .tx⟩).head f)) := by
  rw [exec, execRbPush, pos]
  exact congrArg _ (pushCheckStep_eq ..)

theorem exec_rbPush_pushFill (pos : s.pos = .pushFill h f) (slot : h < (s.ring ⟨d, .tx⟩).cap) : exec (.rbPush d sel) s =
    .next ((s.setRing ⟨d, .tx⟩ ((s.ring ⟨d, .tx⟩).store h f.words)).goto .app (.pushPublish h)) := by
  rw [exec, execRbPush, pos]
  exact congrArg _ (pushFillStep_store slot)

theorem exec_rbPush_pushPublish (pos : s.pos = .pushPublish h) : exec (.rbPush d sel) s =
    .next ((s.setRing ⟨d, .tx⟩ ((s.ring ⟨d, .tx⟩).publish h)).goto .app (.finishBool true)) := by
  rw [exec, execRbPush, pos]
  rfl

theorem exec_rbPush_finishBool {ok : Bool} (pos : s.pos = .finishBool ok) :
    exec (.rbPush d sel) s = .next (s.finish (if ok then .ok else .full) []) := by
  rw [exec, execRbPush, pos]

/-! ## `RB_PEEK` (R114) -/

theorem exec_rbPeek_tx (ready : s.Ready d) (start : s.pos = .start) :
    exec (.rbPeek d .tx) s = .next (s.finish .errOwner []) := by
  rw [exec, execRbPeek, start, whenRunning_of_ready ready, if_pos rfl]

theorem exec_rbPeek_start (ready : s.Ready d) (start : s.pos = .start) :
    exec (.rbPeek d .rx) s = .next (s.goto .app .peekCheck) := by
  rw [exec, execRbPeek, start, whenRunning_of_ready ready, if_neg nofun]

theorem exec_rbPeek_peekCheck (pos : s.pos = .peekCheck) : exec (.rbPeek d sel) s =
    .next (s.goto .app (if (s.ring ⟨d, .rx⟩).isEmpty then .finishFrame none else .peekRead (s.ring ⟨d, .rx⟩).tail)) := by
  rw [exec, execRbPeek, pos]
  exact congrArg _ (peekCheckStep_eq ..)

theorem exec_rbPeek_peekRead (pos : s.pos = .peekRead t) (read : (s.ring ⟨d, .rx⟩).readSlot t = .ok w) :
    exec (.rbPeek d sel) s = .next (s.goto .app (.finishFrame (some (Frame.ofWords w)))) := by
  rw [exec, execRbPeek, pos]
  exact congrArg _ (peekReadStep_ok read)

theorem exec_rbPeek_finish_none (pos : s.pos = .finishFrame none) :
    exec (.rbPeek d sel) s = .next (s.finish .empty []) := by
  rw [exec, execRbPeek, pos]

theorem exec_rbPeek_finish_some (pos : s.pos = .finishFrame (some f)) :
    exec (.rbPeek d sel) s = .next (s.finish .ok f.results) := by
  rw [exec, execRbPeek, pos]

/-! ## `RB_POP` (R115) -/

theorem exec_rbPop_tx (ready : s.Ready d) (start : s.pos = .start) :
    exec (.rbPop d .tx) s = .next (s.finish .errOwner []) := by
  rw [exec, execRbPop, start, whenRunning_of_ready ready, if_pos rfl]

theorem exec_rbPop_start (ready : s.Ready d) (start : s.pos = .start) :
    exec (.rbPop d .rx) s = .next (s.goto .app (.popCheck none)) := by
  rw [exec, execRbPop, start, whenRunning_of_ready ready, if_neg nofun]

theorem exec_rbPop_popCheck (pos : s.pos = .popCheck x) : exec (.rbPop d sel) s =
    .next (s.goto .app (if (s.ring ⟨d, .rx⟩).isEmpty then .finishBool false else .popAdvance (s.ring ⟨d, .rx⟩).tail x)) := by
  rw [exec, execRbPop, pos]
  exact congrArg _ (popCheckStep_eq ..)

theorem exec_rbPop_popAdvance (pos : s.pos = .popAdvance t x) : exec (.rbPop d sel) s =
    .next ((s.setRing ⟨d, .rx⟩ ((s.ring ⟨d, .rx⟩).advance t)).goto .app (.finishBool true)) := by
  rw [exec, execRbPop, pos]
  rfl

theorem exec_rbPop_finishBool {ok : Bool} (pos : s.pos = .finishBool ok) :
    exec (.rbPop d sel) s = .next (s.finish (if ok then .ok else .empty) []) := by
  rw [exec, execRbPop, pos]

/-- Every ring command makes the lifecycle check first (R191). -/
theorem startsOnRunning_of_cmdR (ringCommand : i.format = .cmdR) : StartsOnRunning i i.deviceOf := by
  refine startsOnRunning (by simp [ringCommand]) ?_ ?_ ?_ ?_
  · rintro rfl
    cases ringCommand
  all_goals
    rintro d rfl
    cases ringCommand

end Machine

open Machine

/-- Settles O10: the query step ends with the formula's value (`Ring.isEmpty_iff`, `Ring.isFull_iff`, `Ring.count`). -/
theorem ringQueries : Obligations.RingQueries := by
  intro d sel
  refine ⟨startsOnRunning_of_cmdR (i := .rbIsEmpty d sel) rfl, startsOnRunning_of_cmdR (i := .rbIsFull d sel) rfl,
    startsOnRunning_of_cmdR (i := .rbCount d sel) rfl, fun s => ⟨fun start ready => exec_query_start ready start,
    fun cur => ⟨?empty, ?full, ?count⟩⟩⟩
  case empty =>
    rw [exec_rbIsEmpty_query (pos_of_cur cur), boolResult, bitWord]
    simp only [Ring.isEmpty_iff]
    rfl
  case full =>
    rw [exec_rbIsFull_query (pos_of_cur cur), boolResult, bitWord]
    simp only [Ring.isFull_iff]
    rfl
  case count =>
    rw [exec_rbCount_query (pos_of_cur cur), Ring.count, apply_ite (BitVec.ofNat 32)]
    rfl

/-- Settles O11: the step rules of `RB_PUSH`; what the fill stores and leaves is `storesFrame_store`. -/
theorem rbPushSteps : Obligations.RbPushSteps := by
  refine fun d => ⟨startsOnRunning_of_cmdR (i := .rbPush d .rx) rfl, startsOnRunning_of_cmdR (i := .rbPush d .tx) rfl,
    fun s => ⟨fun start ready => ⟨exec_rbPush_rx ready start, fun invalid => ?invalid, fun valid => ?valid⟩,
      fun f cur => ?check, fun h f cur present slot => ?fill, fun h cur present => ?publish,
      exec_rbPush_finishBool (ok := true) rfl, exec_rbPush_finishBool (ok := false) rfl⟩⟩
  case invalid => rw [exec_rbPush_start ready start, if_neg (Bool.eq_false_iff.1 invalid)]
  case valid =>
    rw [exec_rbPush_start ready start, if_pos valid]
    rfl
  case check =>
    rw [exec_rbPush_pushCheck (pos_of_cur cur)]
    simp only [Ring.isFull_iff]
    rfl
  case fill => exact ⟨_, exec_rbPush_pushFill (pos_of_cur cur) slot, rfl, rfl, storesFrame_store present⟩
  case publish =>
    exact ⟨_, exec_rbPush_pushPublish (pos_of_cur cur), rfl, device_setRing_self _ present,
      fun e other => otherDevices_setRing e other, rfl⟩

/-- Settles O13: the step rules of `RB_PEEK` and `RB_POP`. -/
theorem rbPeekPopSteps : Obligations.RbPeekPopSteps := by
  constructor
  · refine fun d => ⟨startsOnRunning_of_cmdR (i := .rbPeek d .rx) rfl, startsOnRunning_of_cmdR (i := .rbPeek d .tx) rfl,
      fun s => ⟨fun start ready => ⟨exec_rbPeek_tx ready start, exec_rbPeek_start ready start⟩, fun cur => ?_,
        fun t w cur read => exec_rbPeek_peekRead (pos_of_cur cur) read, exec_rbPeek_finish_none rfl,
        fun f => exec_rbPeek_finish_some rfl⟩⟩
    rw [exec_rbPeek_peekCheck (pos_of_cur cur)]
    simp only [Ring.isEmpty_iff]
    rfl
  · refine fun d => ⟨startsOnRunning_of_cmdR (i := .rbPop d .rx) rfl, startsOnRunning_of_cmdR (i := .rbPop d .tx) rfl,
      fun s => ⟨fun start ready => ⟨exec_rbPop_tx ready start, exec_rbPop_start ready start⟩, fun x cur => ?check,
        fun t x cur present => ⟨_, exec_rbPop_popAdvance (pos_of_cur cur), rfl, device_setRing_self _ present,
          fun e other => otherDevices_setRing e other, rfl⟩,
        exec_rbPop_finishBool (ok := true) rfl, exec_rbPop_finishBool (ok := false) rfl⟩⟩
    rw [exec_rbPop_popCheck (pos_of_cur cur)]
    simp only [Ring.isEmpty_iff]
    rfl

end Sys2Proof
end

section
/-!
SUPPORT. Uninterrupted runs of `RB_PUSH`, `RB_PEEK` and `RB_POP` (spec/41_ring.md R113 to R115): the chain of their steps, and the
state it ends in.
-/

namespace Sys2Proof
namespace Machine

variable {s : State} {d n : Nat} {w : FrameWords} {i : Instr}

theorem execTimes_succ {u : State} (step : exec i s = .next u) : execTimes i (n + 1) s = execTimes i n u := by
  rw [execTimes, step]

section Run

variable (ready : s.Ready d) (start : s.pos = .start)

include ready start

theorem execTimes_rbPush_full (valid : s.argFrame.valid = true) (full : (s.ring ⟨d, .tx⟩).isFull = true) :
    execTimes (.rbPush d .tx) 3 s = .next (s.finish .full []) := by
  rw [execTimes_succ (exec_rbPush_start ready start), if_pos valid, execTimes_succ (exec_rbPush_pushCheck goto_app_pos),
    goto_ring, if_pos full, execTimes_succ (exec_rbPush_finishBool goto_app_pos)]
  rfl

/-- The five steps of a push that is not refused (R105): check, full test, fill, publish, end. -/
theorem execTimes_rbPush (present : d < s.dev.length) (valid : s.argFrame.valid = true) (ok : (s.ring ⟨d, .tx⟩).Ok)
    (room : (s.ring ⟨d, .tx⟩).isFull = false) : execTimes (.rbPush d .tx) 5 s =
      .next ((s.setRing ⟨d, .tx⟩ ((s.ring ⟨d, .tx⟩).push s.argFrame)).finish .ok []) := by
  have slot := ok.head_lt (Ring.cap_ne_zero_of_not_full room)
  rw [execTimes_succ (exec_rbPush_start ready start), if_pos valid, execTimes_succ (exec_rbPush_pushCheck goto_app_pos),
    goto_ring, if_neg (Bool.eq_false_iff.1 room), goto_app_goto_app,
    execTimes_succ (exec_rbPush_pushFill goto_app_pos (by rwa [goto_ring])), goto_ring, Frame.words_ofWords valid,
    goto_app_setRing, goto_app_goto_app, execTimes_succ (exec_rbPush_pushPublish goto_app_pos), goto_ring,
    ring_setRing_self _ _ present, goto_app_setRing, goto_app_goto_app, setRing_setRing _ present,
    execTimes_succ (exec_rbPush_finishBool goto_app_pos), goto_app_finish]
  rfl

theorem execTimes_rbPeek_empty (empty : (s.ring ⟨d, .rx⟩).isEmpty = true) :
    execTimes (.rbPeek d .rx) 3 s = .next (s.finish .empty []) := by
  rw [execTimes_succ (exec_rbPeek_start ready start), execTimes_succ (exec_rbPeek_peekCheck goto_app_pos), goto_ring,
    if_pos empty, execTimes_succ (exec_rbPeek_finish_none goto_app_pos)]
  rfl

/-- The four steps of a peek of a ring that is not empty (R106): check, empty test, read, end. -/
theorem execTimes_rbPeek (occupied : (s.ring ⟨d, .rx⟩).isEmpty = false)
    (read : (s.ring ⟨d, .rx⟩).readSlot (s.ring ⟨d, .rx⟩).tail = .ok w) :
    execTimes (.rbPeek d .rx) 4 s = .next (s.finish .ok (Frame.ofWords w).results) := by
  rw [execTimes_succ (exec_rbPeek_start ready start), execTimes_succ (exec_rbPeek_peekCheck goto_app_pos), goto_ring,
    if_neg (Bool.eq_false_iff.1 occupied), goto_app_goto_app,
    execTimes_succ (exec_rbPeek_peekRead goto_app_pos (by rwa [goto_ring])),
    execTimes_succ (exec_rbPeek_finish_some goto_app_pos)]
  rfl

theorem execTimes_rbPop_empty (empty : (s.ring ⟨d, .rx⟩).isEmpty = true) :
    execTimes (.rbPop d .rx) 3 s = .next (s.finish .empty []) := by
  rw [execTimes_succ (exec_rbPop_start ready start), execTimes_succ (exec_rbPop_popCheck goto_app_pos), goto_ring,
    if_pos empty, execTimes_succ (exec_rbPop_finishBool goto_app_pos)]
  rfl

/-- The four steps of a pop of a ring that is not empty (R107): check, empty test, advance, end. -/
theorem execTimes_rbPop (occupied : (s.ring ⟨d, .rx⟩).isEmpty = false) : execTimes (.rbPop d .rx) 4 s =
    .next ((s.setRing ⟨d, .rx⟩ ((s.ring ⟨d, .rx⟩).advance (s.ring ⟨d, .rx⟩).tail)).finish .ok []) := by
  rw [execTimes_succ (exec_rbPop_start ready start), execTimes_succ (exec_rbPop_popCheck goto_app_pos), goto_ring,
    if_neg (Bool.eq_false_iff.1 occupied), goto_app_goto_app, execTimes_succ (exec_rbPop_popAdvance goto_app_pos), goto_ring,
    goto_app_setRing, goto_app_goto_app, execTimes_succ (exec_rbPop_finishBool goto_app_pos)]
  rfl

end Run

end Machine

open Machine

/-- Settles O12: the run is the push of one frame (`execTimes_rbPush`), which fills slot `HEAD` and advances. -/
theorem rbPushRun : Obligations.RbPushRun := by
  rintro d s ⟨_, sized⟩ ready ok start valid
  refine ⟨execTimes_rbPush_full ready start valid, fun room => ?_⟩
  have present := ready.lt_dev_length sized
  have slot := ok.head_lt (Ring.cap_ne_zero_of_not_full room)
  have tail := ok.tail_lt (Ring.cap_ne_zero_of_not_full room)
  refine ⟨_, execTimes_rbPush ready start present valid ok room, rfl, rfl, rfl, ?_⟩
  rw [ring_eq_of_dev (finish_dev ..), ring_setRing_self _ _ present, device_eq_of_dev (finish_dev ..),
    device_setRing_self _ present]
  refine ⟨Ring.push_readSlot_head slot, Ring.push_head, Ring.count_push slot tail room, fun a => Ring.read_push_ne, ?device,
    fun e other => otherDevices_setRing e other, rfl⟩
  show { s.device d with txr :=
    { (s.ring ⟨d, .tx⟩).push s.argFrame with head := (s.ring ⟨d, .tx⟩).head, slot := (s.ring ⟨d, .tx⟩).slot } } = s.device d
  rw [Ring.push_frame]
  rfl

/-- Settles O14: the oldest slot of a ring that is not empty is written, so the peek reads it, and the pop advances past it. -/
theorem rbPeekPopRun : Obligations.RbPeekPopRun := by
  rintro d s ⟨_, sized⟩ ready ok start
  refine ⟨fun empty => ⟨execTimes_rbPeek_empty ready start empty, execTimes_rbPop_empty ready start empty⟩,
    fun occupied => ⟨?peek, ?pop⟩⟩
  case peek =>
    obtain ⟨w, read⟩ := ok.readSlot_tail occupied
    exact ⟨w, read, execTimes_rbPeek ready start occupied read⟩
  case pop =>
    have allocated := Ring.cap_ne_zero_of_not_empty occupied
    have present := ready.lt_dev_length sized
    refine ⟨_, execTimes_rbPop ready start occupied, rfl, rfl, rfl, device_setRing_self _ present, ?_,
      fun e other => otherDevices_setRing e other, rfl⟩
    rw [ring_eq_of_dev (finish_dev ..), ring_setRing_self _ _ present]
    exact Ring.count_advance (ok.head_lt allocated) (ok.tail_lt allocated) occupied

end Sys2Proof
end

section
/-!
SUPPORT. The bit-timing solver (spec/42_bittiming.md): what R133 asks of a pair, which pair the search of R134 answers, and what
every result satisfies (R138).
-/

namespace Sys2Proof
namespace Machine

variable {baud clk c n q : Nat} {r : Solution}

/-! ## The search (R133, R134) -/

/-- The four conditions of R133. -/
theorem candidateOk_iff : candidateOk baud c q = true ↔
    c % (baud * q) = 0 ∧ 1 ≤ c / (baud * q) ∧ c / (baud * q) ≤ 1024 ∧
    1 ≤ seg1 q ∧ seg1 q ≤ 16 ∧ 1 ≤ seg2 q ∧ seg2 q ≤ 8 := by
  simp only [candidateOk, Bool.and_eq_true, decide_eq_true_eq, and_assoc]

/-- The inner loop finds the first quanta count whose pair passes. -/
theorem searchQuanta_eq_find? (l : List Nat) :
    searchQuanta baud c l = (l.find? (candidateOk baud c)).map (candidate baud c) := by
  induction l with
  | nil => rfl
  | cons q rest ih =>
    rw [searchQuanta, List.find?_cons]
    cases candidateOk baud c q
    · exact ih
    · rfl

theorem searchQuanta_eq_none_iff {l : List Nat} :
    searchQuanta baud c l = none ↔ ∀ q ∈ l, ¬ candidateOk baud c q = true := by
  rw [searchQuanta_eq_find?, Option.map_eq_none_iff, List.find?_eq_none]

theorem searchQuanta_eq_some {l : List Nat} (found : searchQuanta baud c l = some r) :
    ∃ n q : Nat, l[n]? = some q ∧ candidateOk baud c q = true ∧ r = candidate baud c q ∧
      ∀ (n' q' : Nat), n' < n → l[n']? = some q' → ¬ candidateOk baud c q' = true := by
  rw [searchQuanta_eq_find?, Option.map_eq_some_iff] at found
  obtain ⟨q, first, rfl⟩ := found
  obtain ⟨passes, n, bound, here, earlier⟩ := List.find?_eq_some_iff_getElem.1 first
  refine ⟨n, q, List.getElem?_eq_some_iff.2 ⟨bound, here⟩, passes, rfl, fun n' q' before there => ?_⟩
  obtain ⟨_, rfl⟩ := List.getElem?_eq_some_iff.1 there
  simpa using earlier n' before

theorem searchClock_succ_succ (n c : Nat) :
    searchClock baud (n + 1) (c + 1) = (searchQuanta baud (c + 1) qorder).or (searchClock baud n c) := by
  rw [searchClock]
  cases searchQuanta baud (c + 1) qorder <;> rfl

/-- The outer loop fails exactly when the inner loop fails at each of its clocks. -/
theorem searchClock_eq_none_iff : searchClock baud n c = none ↔
    ∀ dlt, dlt < n → dlt < c → searchQuanta baud (c - dlt) qorder = none := by
  induction n generalizing c with
  | zero => simp [searchClock]
  | succ n ih =>
    cases c with
    | zero => simp [searchClock]
    | succ c =>
      rw [searchClock_succ_succ, Option.or_eq_none_iff, ih, Nat.forall_lt_succ_left]
      simp

/-- The outer loop answers at the first of its clocks where the inner loop does. -/
theorem searchClock_eq_some (found : searchClock baud n c = some r) :
    ∃ dlt, dlt < n ∧ dlt < c ∧ searchQuanta baud (c - dlt) qorder = some r ∧
      ∀ dlt', dlt' < dlt → searchQuanta baud (c - dlt') qorder = none := by
  induction n generalizing c with
  | zero => cases found
  | succ n ih =>
    cases c with
    | zero => cases found
    | succ c =>
      rw [searchClock_succ_succ, Option.or_eq_some_iff] at found
      obtain here | ⟨failed, later⟩ := found
      · exact ⟨0, by omega, by omega, here, nofun⟩
      · obtain ⟨dlt, window, positive, here, earlier⟩ := ih later
        refine ⟨dlt + 1, by omega, by omega, by rwa [Nat.add_sub_add_right], ?_⟩
        rw [Nat.forall_lt_succ_left]
        simpa [failed] using earlier

theorem solve_eq_none_iff : solve baud clk = none ↔ baud = 0 ∨ 1000000 < baud ∨
    ∀ dlt, dlt ≤ clk / 1000 → dlt < clk → ∀ q ∈ qorder, ¬ candidateOk baud (clk - dlt) q = true := by
  rw [← or_assoc, solve]
  split
  case isTrue refused => exact iff_of_true rfl (.inl refused)
  case isFalse searched =>
    simp only [searchClock_eq_none_iff, searchQuanta_eq_none_iff, clkDeltaMax, Nat.lt_succ_iff]
    exact (or_iff_right searched).symm

/-- A result is the record of the first pair of R134's order that passes R133. -/
theorem solve_eq_some (solved : solve baud clk = some r) : baud ≠ 0 ∧ baud ≤ 1000000 ∧
    ∃ dlt n q, dlt ≤ clk / 1000 ∧ dlt < clk ∧ qorder[n]? = some q ∧
      candidateOk baud (clk - dlt) q = true ∧ r = candidate baud (clk - dlt) q ∧
      (∀ dlt', dlt' < dlt → ∀ q' ∈ qorder, ¬ candidateOk baud (clk - dlt') q' = true) ∧
      ∀ (n' q' : Nat), n' < n → qorder[n']? = some q' → ¬ candidateOk baud (clk - dlt) q' = true := by
  rw [solve, Option.ite_none_left_eq_some, not_or, Nat.not_lt] at solved
  obtain ⟨⟨positive, bounded⟩, found⟩ := solved
  obtain ⟨dlt, window, below, here, earlier⟩ := searchClock_eq_some found
  obtain ⟨n, q, at_n, passes, record, before⟩ := searchQuanta_eq_some here
  exact ⟨positive, bounded, dlt, n, q, Nat.lt_succ_iff.1 window, below, at_n, passes, record,
    fun dlt' h => searchQuanta_eq_none_iff.1 (earlier dlt' h), before⟩

/-! ## What a result satisfies (R138) -/

/-- The segments of a quanta count of the search order fill the bit, and R133's bound on segment 1 leaves 8 to 19 quanta. -/
theorem quanta_of_mem_qorder (listed : q ∈ qorder) (t1_le : seg1 q ≤ 16) :
    q = 1 + seg1 q + seg2 q ∧ 8 ≤ q ∧ q ≤ 19 := by
  have all : ∀ q ∈ qorder, seg1 q ≤ 16 → q = 1 + seg1 q + seg2 q ∧ 8 ≤ q ∧ q ≤ 19 := by decide
  exact all q listed t1_le

/-- Of the counts a result can have, the four of R138(d) put the sample point within 1 percentage point of 87.5 %. -/
theorem samplePoint_near_iff (low : 8 ≤ q) (high : q ≤ 19) :
    (1000 * (1 + seg1 q) ≤ 885 * q ∧ 865 * q ≤ 1000 * (1 + seg1 q)) ↔ (q = 8 ∨ q = 15 ∨ q = 16 ∨ q = 17) := by
  have all : ∀ q ∈ List.range' 8 12, (1000 * (1 + seg1 q) ≤ 885 * q ∧ 865 * q ≤ 1000 * (1 + seg1 q)) ↔
      (q = 8 ∨ q = 15 ∨ q = 16 ∨ q = 17) := by decide
  exact all q (List.mem_range'_1.2 ⟨low, Nat.lt_succ_iff.2 high⟩)

/-- What R130, R133 and R138(a) to (c) say of the result `r` for a rate and a clock. -/
structure Solution.Sound (r : Solution) (baud clk : Nat) : Prop where
  exact_rate : r.c = r.brp * r.q * baud
  near : clk - clk / 1000 ≤ r.c
  below : r.c ≤ clk
  bit : r.q = 1 + r.t1 + r.t2
  q_low : 8 ≤ r.q
  q_high : r.q ≤ 19
  brp_pos : 1 ≤ r.brp
  brp_le : r.brp ≤ 1024
  t1_pos : 1 ≤ r.t1
  t1_le : r.t1 ≤ 16
  t2_pos : 1 ≤ r.t2
  t2_le : r.t2 ≤ 8
  t1_eq : r.t1 = seg1 r.q
  t2_eq : r.t2 = seg2 r.q
  sjw_eq : r.sjw = 1

theorem solve_sound (solved : solve baud clk = some r) : r.Sound baud clk := by
  obtain ⟨_, _, dlt, n, q, window, _, at_n, passes, rfl, _, _⟩ := solve_eq_some solved
  obtain ⟨divides, brp_pos, brp_le, t1_pos, t1_le, t2_pos, t2_le⟩ := candidateOk_iff.1 passes
  obtain ⟨bit, q_low, q_high⟩ := quanta_of_mem_qorder (List.mem_of_getElem? at_n) t1_le
  have exact_rate : clk - dlt = (clk - dlt) / (baud * q) * q * baud := by
    rw [mul_assoc, mul_comm q baud, Nat.div_mul_cancel (Nat.dvd_of_mod_eq_zero divides)]
  exact { exact_rate, brp_pos, brp_le, t1_pos, t1_le, t2_pos, t2_le, bit, q_low, q_high, near := Nat.sub_le_sub_left window clk,
          below := Nat.sub_le clk dlt, t1_eq := rfl, t2_eq := rfl, sjw_eq := rfl }

namespace Solution.Sound

variable (sound : r.Sound baud clk)

include sound

theorem quanta_pos : 0 < r.brp * r.q := Nat.mul_pos sound.brp_pos (by have := sound.q_low; omega)

theorem clock_within : 999 * clk ≤ 1000 * r.c := by
  have := sound.near
  omega

/-- The clock of the result is at most the nominal one, so the rate at the nominal clock is at least the target. -/
theorem rate_ge : baud ≤ clk / (r.brp * r.q) := by
  rw [Nat.le_div_iff_mul_le sound.quanta_pos, mul_comm, ← sound.exact_rate]
  exact sound.below

/-- The clock of the result is within 0.1 % of the nominal one, and so is the rate. -/
theorem rate_le : 999 * (clk / (r.brp * r.q)) ≤ 1000 * baud := by
  refine Nat.le_of_mul_le_mul_left (c := r.brp * r.q) ?_ sound.quanta_pos
  calc r.brp * r.q * (999 * (clk / (r.brp * r.q)))
      = 999 * (r.brp * r.q * (clk / (r.brp * r.q))) := Nat.mul_left_comm ..
    _ ≤ 999 * clk := Nat.mul_le_mul_left _ (Nat.mul_div_le ..)
    _ ≤ 1000 * r.c := sound.clock_within
    _ = r.brp * r.q * (1000 * baud) := by rw [sound.exact_rate, Nat.mul_left_comm]

end Solution.Sound

/-! ## The words of a result (R76, R82) -/

theorem field_eq_div_mod (w : Word) (lo len : Nat) : field w lo len = w.toNat / 2 ^ lo % 2 ^ len := by
  rw [field, BitVec.extractLsb'_toNat, Nat.shiftRight_eq_div_pow]

/-- A field put at position `k` above a word that ends below `k` adds its place value. -/
theorem toNat_or_shiftLeft {w : Word} {a v k : Nat} (value : w.toNat = a) (clear : a < 2 ^ k) (fits : v * 2 ^ k < 2 ^ 32) :
    (w ||| BitVec.ofNat 32 v <<< k).toNat = a + v * 2 ^ k := by
  have small : v < 2 ^ 32 := Nat.lt_of_le_of_lt (Nat.le_mul_of_pos_right v (Nat.two_pow_pos k)) fits
  rw [BitVec.toNat_or, BitVec.toNat_shiftLeft, BitVec.toNat_ofNat, Nat.mod_eq_of_lt small, value, Nat.or_comm,
    Nat.mod_eq_of_lt (by rwa [Nat.shiftLeft_eq]), ← Nat.shiftLeft_add_eq_or_of_lt clear, Nat.shiftLeft_eq, Nat.add_comm]

namespace Solution.Sound

variable (sound : r.Sound baud clk)

include sound

/-- The bounds that keep each length in its field. -/
theorem fits : r.brp ≤ 1024 ∧ r.t1 ≤ 16 ∧ r.t2 ≤ 8 ∧ r.sjw = 1 ∧ r.q ≤ 19 :=
  ⟨sound.brp_le, sound.t1_le, sound.t2_le, sound.sjw_eq, sound.q_high⟩

theorem toNat_timing :
    r.timing.toNat = (r.brp - 1) + (r.t1 - 1) * 2 ^ 16 + (r.t2 - 1) * 2 ^ 20 + (r.sjw - 1) * 2 ^ 24 := by
  have ⟨brp_le, t1_le, t2_le, sjw_eq, _⟩ := sound.fits
  have brp : (BitVec.ofNat 32 (r.brp - 1)).toNat = r.brp - 1 := Nat.mod_eq_of_lt (by omega)
  have t1 := toNat_or_shiftLeft (v := r.t1 - 1) (k := 16) brp (by omega) (by omega)
  have t2 := toNat_or_shiftLeft (v := r.t2 - 1) (k := 20) t1 (by omega) (by omega)
  exact toNat_or_shiftLeft t2 (by omega) (by omega)

/-- `RES2` as the sum of the lengths at their positions. -/
theorem toNat_res2 :
    ((Words8.ofList (r.results clk)).get 2).toNat = r.t1 + r.t2 * 2 ^ 8 + r.sjw * 2 ^ 16 + r.q * 2 ^ 24 := by
  have ⟨_, t1_le, t2_le, sjw_eq, q_high⟩ := sound.fits
  have t1 : (BitVec.ofNat 32 r.t1).toNat = r.t1 := Nat.mod_eq_of_lt (by omega)
  have t2 := toNat_or_shiftLeft (v := r.t2) (k := 8) t1 (by omega) (by omega)
  have sjw := toNat_or_shiftLeft (v := r.sjw) (k := 16) t2 (by omega) (by omega)
  exact toNat_or_shiftLeft sjw (by omega) (by omega)

/-- The fields of the timing word (R76): the lengths less one, and 0 between and above them. -/
theorem field_timing :
    field r.timing 0 10 = r.brp - 1 ∧ field r.timing 10 6 = 0 ∧ field r.timing 16 4 = r.t1 - 1 ∧
    field r.timing 20 3 = r.t2 - 1 ∧ field r.timing 23 1 = 0 ∧ field r.timing 24 2 = 0 ∧ field r.timing 26 6 = 0 := by
  have ⟨brp_le, t1_le, t2_le, sjw_eq, _⟩ := sound.fits
  simp only [field_eq_div_mod, sound.toNat_timing]
  refine ⟨?_, ?_, ?_, ?_, ?_, ?_, ?_⟩ <;> omega

/-- The results of `BT_SOLVE` but the timing word, at a clock of 32 bits (R82). -/
theorem results_values (clock : clk < 2 ^ 32) : let res := Words8.ofList (r.results clk)
    (res.get 1).toNat = r.brp ∧
    field (res.get 2) 0 8 = r.t1 ∧ field (res.get 2) 8 8 = r.t2 ∧ field (res.get 2) 16 8 = r.sjw ∧
    field (res.get 2) 24 8 = r.q ∧
    (res.get 3).toNat = r.c ∧ (res.get 4).toNat = clk / (r.brp * r.q) ∧ (res.get 5).toNat = 1000 * (1 + r.t1) / r.q := by
  have ⟨brp_le, t1_le, t2_le, sjw_eq, q_high⟩ := sound.fits
  have c_le := sound.below
  have rate_le : clk / (r.brp * r.q) ≤ clk := Nat.div_le_self ..
  have point_le : 1000 * (1 + r.t1) / r.q ≤ 1000 * (1 + r.t1) := Nat.div_le_self ..
  simp only [field_eq_div_mod, sound.toNat_res2]
  refine ⟨Nat.mod_eq_of_lt ?_, ?_, ?_, ?_, ?_, Nat.mod_eq_of_lt ?_, Nat.mod_eq_of_lt ?_, Nat.mod_eq_of_lt ?_⟩ <;> omega

end Solution.Sound

/-! ## `BT_SOLVE` (R136) -/

theorem exec_btSolve_of_none {s : State} (start : s.pos = .start)
    (failed : solve (s.argWord 0).toNat (s.argWord 1).toNat = none) :
    exec .btSolve s = .next (s.finish .errBaud []) := by
  show execBtSolve s = _
  rw [execBtSolve, failed, single_of_start _ start]

theorem exec_btSolve_of_some {s : State} (start : s.pos = .start)
    (solved : solve (s.argWord 0).toNat (s.argWord 1).toNat = some r) :
    exec .btSolve s = .next (s.finish .ok (r.results (s.argWord 1).toNat)) := by
  show execBtSolve s = _
  rw [execBtSolve, solved, single_of_start _ start]

end Machine

open Machine

/-- Settles O18: the lists are computed. -/
theorem quantaAndSegments : Obligations.QuantaAndSegments := by
  refine ⟨rfl, fun q low high => ?_, by decide, by decide⟩
  have all : ∀ q ∈ List.range' 8 17, qorder.count q = 1 := by decide
  exact all q (List.mem_range'_1.2 ⟨low, Nat.lt_succ_iff.2 high⟩)

/-- Settles O19: the search fails or answers as `solve_eq_none_iff` and `solve_eq_some` say, with R133 as `candidateOk_iff`. -/
theorem solverSearch : Obligations.SolverSearch := by
  intro baud clk
  simp only [← candidateOk_iff]
  refine ⟨solve_eq_none_iff, fun r solved => ?_⟩
  obtain ⟨positive, bounded, dlt, n, q, window, below, at_n, passes, rfl, earlier, before⟩ := solve_eq_some solved
  obtain ⟨divides, brp_pos, brp_le, t1_pos, t1_le, t2_pos, t2_le⟩ := candidateOk_iff.1 passes
  have in_order : n < 17 := (List.getElem?_eq_some_iff.1 at_n).1
  refine ⟨positive, bounded, dlt, n, window, below, in_order, at_n, rfl, divides, rfl, brp_pos, brp_le, rfl, rfl, rfl,
    ⟨t1_pos, t1_le⟩, ⟨t2_pos, t2_le⟩, ?_⟩
  rintro dlt' n' q' - - there (h | ⟨rfl, h⟩)
  · exact earlier dlt' h q' (List.mem_of_getElem? there)
  · exact before n' q' h there

/-- Settles O20: every result is sound (`solve_sound`), and the bounds at the nominal clock and the fields of the timing word
follow. -/
theorem solverProperties : Obligations.SolverProperties := by
  intro baud clk r solved
  have sound := solve_sound solved
  refine ⟨sound.exact_rate, sound.near, sound.below, sound.clock_within, sound.bit, sound.sjw_eq, sound.brp_pos, sound.brp_le,
    sound.t1_pos, sound.t1_le, sound.t2_pos, sound.t2_le, sound.q_low, sound.q_high, sound.t1_eq, sound.t2_eq, sound.rate_ge,
    sound.rate_le, ?_, sound.field_timing⟩
  rw [sound.t1_eq]
  exact samplePoint_near_iff sound.q_low sound.q_high

/-- Settles O21: the command's one step is the solver's answer, and the six results hold a sound record. -/
theorem btSolve : Obligations.BtSolve := by
  refine fun s start => ⟨exec_btSolve_of_none start, fun r solved => ?_⟩
  obtain ⟨brp, t1, t2, sjw, q, clock, rate, point⟩ := (solve_sound solved).results_values (s.arg.get 1).isLt
  exact ⟨_, exec_btSolve_of_some start solved, rfl, rfl, rfl, rfl, brp, t1, t2, sjw, q, clock, rate, point, rfl, rfl⟩

end Sys2Proof
end

section
/-!
SUPPORT. Filter words and halves (spec/43_filter.md R152, R167): each is the sum of its fields at their positions, for operands
in the ranges of R151 and for valid frames.
-/

namespace Sys2Proof
namespace Machine

/-! ## Fields put together -/

/-- A word that holds nothing below bit `k` over one that ends there. -/
theorem toNat_or_of_lt {n k a b : Nat} {v w : BitVec n} (high : v.toNat = a * 2 ^ k) (low : w.toNat = b) (clear : b < 2 ^ k) :
    (v ||| w).toNat = a * 2 ^ k + b := by
  rw [BitVec.toNat_or, high, low, ← Nat.shiftLeft_eq, ← Nat.shiftLeft_add_eq_or_of_lt clear]

/-- A value moved up by `k` bits, none of which it loses. -/
theorem toNat_shiftLeft_of_lt {n k a : Nat} {v : BitVec n} (value : v.toNat = a) (fits : a * 2 ^ k < 2 ^ n) :
    (v <<< k).toNat = a * 2 ^ k := by
  rw [BitVec.toNat_shiftLeft, value, Nat.shiftLeft_eq, Nat.mod_eq_of_lt fits]

/-- A value moved up by `k` bits, none of which it loses, over a word that ends below bit `k`. -/
theorem toNat_shiftLeft_or {n k a b : Nat} {v w : BitVec n} (high : v.toNat = a) (low : w.toNat = b) (clear : b < 2 ^ k)
    (fits : a * 2 ^ k < 2 ^ n) : (v <<< k ||| w).toNat = a * 2 ^ k + b :=
  toNat_or_of_lt (toNat_shiftLeft_of_lt high fits) low clear

theorem toNat_bitWord (b : Bool) : (bitWord b).toNat = b.toNat := by cases b <;> rfl

/-- A bit moved up by `k` is its place value. -/
theorem toNat_bitWord_shiftLeft (b : Bool) {k : Nat} (h : k < 32) : (bitWord b <<< k).toNat = b.toNat * 2 ^ k := by
  have small : 2 ^ k < 2 ^ 32 := Nat.pow_lt_pow_right (by decide) h
  exact toNat_shiftLeft_of_lt (toNat_bitWord b)
    (Nat.lt_of_le_of_lt (Nat.mul_le_mul_right _ b.toNat_le) ((Nat.one_mul _).symm ▸ small))

/-! ## The encoders (R152) -/

section Encoders

variable {v : Word} (rtr : Bool)

theorem toNat_p32s (std : v.toNat ≤ 0x7FF) : (p32s v rtr).toNat = v.toNat * 2 ^ 21 + 2 * rtr.toNat := by
  have := rtr.toNat_le
  rw [p32s, toNat_shiftLeft_or rfl (toNat_bitWord_shiftLeft rtr (by decide)) (by omega) (by omega)]
  omega

theorem toNat_m32s (std : v.toNat ≤ 0x7FF) : (m32s v).toNat = v.toNat * 2 ^ 21 + 4 :=
  toNat_shiftLeft_or rfl rfl (by decide) (by omega)

theorem toNat_p16 (std : v.toNat ≤ 0x7FF) : (p16 v rtr).toNat = v.toNat * 32 + 16 * rtr.toNat := by
  have := rtr.toNat_le
  rw [p16, toNat_shiftLeft_or rfl (toNat_bitWord_shiftLeft rtr (by decide)) (by omega) (by omega)]
  omega

theorem p16_lt (std : v.toNat ≤ 0x7FF) : (p16 v rtr).toNat < 2 ^ 16 := by
  have := rtr.toNat_le
  rw [toNat_p16 rtr std]
  omega

theorem toNat_m16 (std : v.toNat ≤ 0x7FF) : (m16 v).toNat = v.toNat * 32 + 8 :=
  toNat_shiftLeft_or rfl rfl (by decide) (by omega)

theorem m16_lt (std : v.toNat ≤ 0x7FF) : (m16 v).toNat < 2 ^ 16 := by
  rw [toNat_m16 std]
  omega

theorem toNat_p32x (ext : v.toNat ≤ 0x1FFFFFFF) : (p32x v rtr).toNat = v.toNat * 8 + 4 + 2 * rtr.toNat := by
  have := rtr.toNat_le
  have ide := toNat_or_of_lt (v := ((1 <<< 2 : Nat) : Word)) (a := 1) (k := 2) rfl
    (toNat_bitWord_shiftLeft rtr (k := 1) (by decide)) (by omega)
  rw [p32x, BitVec.or_assoc, toNat_shiftLeft_or rfl ide (by omega) (by omega)]
  omega

theorem toNat_m32x (ext : v.toNat ≤ 0x1FFFFFFF) : (m32x v).toNat = v.toNat * 8 + 4 :=
  toNat_shiftLeft_or rfl rfl (by decide) (by omega)

end Encoders

/-! ## The acceptance words of a frame (R167) -/

namespace Frame

variable {f : Frame}

/-- `W32` of a standard frame is the pattern of its identifier. -/
theorem w32_std (std : f.ide = .std) : f.w32 = p32s (f.id.setWidth 32) f.rtr.bit := by rw [w32, std, p32s]

/-- `W32` of an extended frame is the pattern of its identifier. -/
theorem w32_ext (ext : f.ide = .ext) : f.w32 = p32x (f.id.setWidth 32) f.rtr.bit := by rw [w32, ext, p32x]

theorem toNat_id : (f.id.setWidth 32).toNat = f.id.toNat := by
  rw [BitVec.toNat_setWidth, Nat.mod_eq_of_lt (Nat.lt_trans f.id.isLt (by decide))]

theorem id_le_of_std (valid : f.valid = true) (std : f.ide = .std) : f.id.toNat ≤ 0x7FF := by
  simp only [Frame.valid, std, Bool.and_eq_true, Bool.or_eq_true, decide_eq_true_eq, reduceCtorEq, false_or] at valid
  exact valid.2

theorem id_le : (f.id.setWidth 32).toNat ≤ 0x1FFFFFFF := by
  have := f.id.isLt
  rw [toNat_id]
  omega

theorem toNat_w32_std (valid : f.valid = true) (std : f.ide = .std) :
    f.w32.toNat = f.id.toNat * 2 ^ 21 + 2 * f.rtr.bit.toNat := by
  rw [w32_std std, toNat_p32s _ (by rw [toNat_id]; exact id_le_of_std valid std), toNat_id]

theorem toNat_w32_ext (ext : f.ide = .ext) : f.w32.toNat = f.id.toNat * 8 + 4 + 2 * f.rtr.bit.toNat := by
  rw [w32_ext ext, toNat_p32x _ id_le, toNat_id]

/-- The RTR bit of a half. -/
theorem toNat_rtr_half (b : Bool) : (((if b then 1 else 0 : Nat) <<< 4 : Nat) : BitVec 16).toNat = b.toNat * 2 ^ 4 := by
  cases b <;> rfl

theorem toNat_h16_std (valid : f.valid = true) (std : f.ide = .std) :
    f.h16.toNat = f.id.toNat * 32 + 16 * f.rtr.bit.toNat := by
  have small := id_le_of_std valid std
  have := f.rtr.bit.toNat_le
  have high : (f.id.setWidth 16).toNat = f.id.toNat := by
    rw [BitVec.toNat_setWidth, Nat.mod_eq_of_lt (by omega)]
  simp only [h16, std]
  rw [toNat_shiftLeft_or high (toNat_rtr_half _) (by omega) (by omega)]
  omega

theorem toNat_h16_ext (ext : f.ide = .ext) :
    f.h16.toNat = f.id.toNat / 2 ^ 18 * 32 + 16 * f.rtr.bit.toNat + 8 + f.id.toNat / 2 ^ 15 % 8 := by
  have := f.id.isLt
  have := f.rtr.bit.toNat_le
  have high : ((f.id.extractLsb' 18 11).setWidth 16).toNat = f.id.toNat / 2 ^ 18 := by
    rw [BitVec.toNat_setWidth, BitVec.extractLsb'_toNat, Nat.shiftRight_eq_div_pow]
    omega
  have low : ((f.id.extractLsb' 15 3).setWidth 16).toNat = f.id.toNat / 2 ^ 15 % 8 := by
    rw [BitVec.toNat_setWidth, BitVec.extractLsb'_toNat, Nat.shiftRight_eq_div_pow]
    omega
  have ide := toNat_or_of_lt (v := ((1 <<< 3 : Nat) : BitVec 16)) (a := 1) (k := 3) rfl low (by omega)
  have rtr := toNat_or_of_lt (toNat_rtr_half f.rtr.bit) ide (by omega)
  simp only [h16, ext]
  rw [BitVec.or_assoc, BitVec.or_assoc, toNat_shiftLeft_or high rtr (by omega) (by omega)]
  omega

/-- Bit 0 of `W32` is 0: it is even. -/
theorem w32_getLsbD_zero (valid : f.valid = true) : f.w32.getLsbD 0 = false := by
  rw [← Bool.toNat_eq_zero, toNat_getLsbD]
  cases ide : f.ide with
  | std =>
    rw [toNat_w32_std valid ide]
    omega
  | ext =>
    rw [toNat_w32_ext ide]
    omega

end Frame
end Machine

open Machine

/-- Settles O22: each word is the sum of its fields at their positions (`toNat_shiftLeft_or`). -/
theorem filterWords : Obligations.FilterWords := by
  refine ⟨fun v rtr => ⟨fun std => ⟨toNat_p32s rtr std, toNat_m32s std, toNat_p16 rtr std, p16_lt rtr std, toNat_m16 std,
    m16_lt std⟩, fun ext => ⟨toNat_p32x rtr ext, toNat_m32x ext⟩⟩, fun f valid => ?_⟩
  have rtr (c : Nat) : (if f.rtr = .remote then c else 0) = c * f.rtr.bit.toNat := by cases f.rtr <;> simp [FrameKind.bit]
  simp only [rtr]
  exact ⟨fun std => ⟨Frame.toNat_w32_std valid std, Frame.toNat_h16_std valid std⟩,
    fun ext => ⟨Frame.toNat_w32_ext ext, Frame.toNat_h16_ext ext⟩, Frame.w32_getLsbD_zero valid⟩

end Sys2Proof
end

section
/-!
SUPPORT. When a bank matches a frame (spec/43_filter.md R168), one lemma per mode and scale.
-/

namespace Sys2Proof
namespace Machine

/-- Two words agree under a mask exactly when they agree on each of its bits. -/
theorem and_eq_and_iff {n : Nat} (w x mask : BitVec n) :
    w &&& mask = x &&& mask ↔ ∀ i < n, mask.getLsbD i = true → w.getLsbD i = x.getLsbD i := by
  refine ⟨fun same i _ bit => ?_, fun agree => BitVec.eq_of_getLsbD_eq fun i hi => ?_⟩
  · simpa [bit] using congrArg (·.getLsbD i) same
  · rw [BitVec.getLsbD_and, BitVec.getLsbD_and]
    cases bit : mask.getLsbD i with
    | false => simp
    | true => rw [agree i hi bit]

theorem getLsbD_loHalf (v : Word) {i : Nat} (h : i < 16) : (loHalf v).getLsbD i = v.getLsbD i := by simp [loHalf, h]

theorem getLsbD_hiHalf (v : Word) {i : Nat} (h : i < 16) : (hiHalf v).getLsbD i = v.getLsbD (16 + i) := by simp [hiHalf, h]

theorem toNat_loHalf (v : Word) : (loHalf v).toNat = v.toNat % 65536 := toNat_extractLsb'_zero v 16

theorem toNat_hiHalf (v : Word) : (hiHalf v).toNat = v.toNat / 65536 := by
  have := v.isLt
  rw [hiHalf, BitVec.extractLsb'_toNat, Nat.shiftRight_eq_div_pow]
  omega

namespace Bank

variable {x : Bank} {f : Frame}

theorem accepts_inactive (off : x.fa = false) : x.accepts f = false := by rw [accepts, off, Bool.false_and]

theorem accepts_mask32 (fa : x.fa = true) (fm : x.fm = false) (fs : x.fs = true) :
    x.accepts f = true ↔ f.w32 &&& x.fr2 = x.fr1 &&& x.fr2 := by
  simp [accepts, fa, fm, fs]

theorem accepts_list32 (fa : x.fa = true) (fm : x.fm = true) (fs : x.fs = true) :
    x.accepts f = true ↔ f.w32 = x.fr1 ∨ f.w32 = x.fr2 := by
  simp [accepts, fa, fm, fs]

theorem accepts_mask16 (fa : x.fa = true) (fm : x.fm = false) (fs : x.fs = false) :
    x.accepts f = true ↔ f.h16 &&& loHalf x.fr2 = loHalf x.fr1 &&& loHalf x.fr2 ∨
      f.h16 &&& hiHalf x.fr2 = hiHalf x.fr1 &&& hiHalf x.fr2 := by
  simp [accepts, fa, fm, fs]

theorem accepts_list16 (fa : x.fa = true) (fm : x.fm = true) (fs : x.fs = false) :
    x.accepts f = true ↔
      f.h16 = loHalf x.fr1 ∨ f.h16 = hiHalf x.fr1 ∨ f.h16 = loHalf x.fr2 ∨ f.h16 = hiHalf x.fr2 := by
  simp [accepts, fa, fm, fs, or_assoc]

/-- Mask mode at scale 16, bit by bit. -/
theorem accepts_mask16_iff_bits (fa : x.fa = true) (fm : x.fm = false) (fs : x.fs = false) :
    x.accepts f = true ↔
      (∀ i < 16, x.fr2.getLsbD i = true → f.h16.getLsbD i = x.fr1.getLsbD i) ∨
      (∀ i < 16, x.fr2.getLsbD (16 + i) = true → f.h16.getLsbD i = x.fr1.getLsbD (16 + i)) := by
  rw [accepts_mask16 fa fm fs, and_eq_and_iff, and_eq_and_iff]
  refine or_congr (forall₂_congr fun i hi => ?_) (forall₂_congr fun i hi => ?_)
  · rw [getLsbD_loHalf _ hi, getLsbD_loHalf _ hi]
  · rw [getLsbD_hiHalf _ hi, getLsbD_hiHalf _ hi]

end Bank
end Machine

open Machine

/-- Settles O23: the match of each mode and scale, with agreement under a mask read bit by bit (`and_eq_and_iff`). -/
theorem bankMatch : Obligations.BankMatch := by
  refine fun x f => ⟨Bank.accepts_inactive, fun fa fm fs => ?_, Bank.accepts_list32, Bank.accepts_mask16_iff_bits,
    fun fa fm fs => ?_⟩
  · rw [Bank.accepts_mask32 fa fm fs, and_eq_and_iff]
  · simp only [Bank.accepts_list16 fa fm fs, ← BitVec.toNat_inj, toNat_loHalf, toNat_hiHalf]

end Sys2Proof
end

section
/-!
SUPPORT. The filter arrays under the commands (spec/43_filter.md R153, R162, R163, R166): each change is one write of an
array, and what it leaves in every bank.
-/

namespace Sys2Proof
namespace Machine

variable {s t : State} {a d k : Nat}

/-! ## Each change is one write of the array -/

theorem configure_eq (s : State) (a k : Nat) (p m : Word) (md sc en : Bool) :
    s.configure a k p m md sc en =
      s.setArray a { banks := (s.array a).banks.set k ⟨p, m, md, sc, en, true⟩, wp := true } :=
  bracket_eq s a (·.set k _)

theorem setActive_eq (s : State) (a k : Nat) (v : Bool) :
    s.setActive a k v =
      s.setArray a { banks := (s.array a).banks.set k { s.bank a k with fa := v }, wp := true } := by
  rw [State.setActive, bank_setWp]
  exact bracket_eq s a (·.set k _)

theorem clearOwned_eq (s : State) (d : Nat) :
    s.clearOwned d = s.setArray (s.farrayOf d)
      { banks := clearRange (s.desc d).firstBank (s.desc d).maxBank 0 (s.array (s.farrayOf d)).banks, wp := true } :=
  bracket_eq s (s.farrayOf d) _

/-! ## One bank -/

theorem ownsBank_iff : s.ownsBank d k = true ↔ (s.desc d).firstBank ≤ k ∧ k ≤ (s.desc d).maxBank := by
  simp only [State.ownsBank, Bool.and_eq_true, decide_eq_true_eq]

/-- An owned bank of a present device stands in the tables (R6 to R8). -/
theorem State.Fits.owned_inRange (fits : s.Fits) (present : s.cfg.hasDevice d = true) (owned : s.ownsBank d k = true) :
    s.farrayOf d < s.flt.length ∧ k < (s.array (s.farrayOf d)).banks.length := by
  obtain ⟨admitted, _, _, flt, banks⟩ := fits
  obtain ⟨ranges, own, _⟩ := s.cfg.admitted_iff.1 admitted
  obtain ⟨_, _, _, _, _, _, _, _, _, _, _, _, _, descs⟩ := s.cfg.inRange_iff.1 ranges
  have lt := Config.lt_of_hasDevice present
  obtain ⟨_, array, _⟩ := descs d lt
  obtain ⟨⟨_, last⟩, _⟩ := (s.cfg.rangeOk_iff _).1 (own d lt)
  exact ⟨flt ▸ array, banks _ array ▸ Nat.lt_of_le_of_lt (ownsBank_iff.1 owned).2 last⟩

/-- A write of one bank of an array leaves every other bank and every other array. -/
theorem bankBecomes_setArray (array : a < s.flt.length) (bank : k < (s.array a).banks.length) (x : Bank) :
    s.BankBecomes (s.setArray a { banks := (s.array a).banks.set k x, wp := true }) a k x := by
  refine ⟨?_, by rw [array_setArray_self _ _ array], fun a' k' other => bank_setArray s a _ fun same => ?_,
    fun a' other => array_setArray_ne _ _ (Ne.symm other)⟩
  · simp [State.bank, array_setArray_self _ _ array, FilterArray.bank, List.getD_eq_getElem?_getD, bank]
  · have ne : k ≠ k' := fun e => other.elim (absurd same) (absurd e.symm)
    simp [FilterArray.bank, State.bank, List.getD_eq_getElem?_getD, List.getElem?_set_ne ne]

theorem programmed_of_bankBecomes {u : State} {x : Bank} {l : List Word} (becomes : s.BankBecomes u a k x)
    (frame : { u with flt := s.flt } = s) : s.Programmed (u.finish .ok l) a k x l :=
  ⟨becomes, rfl, rfl, rfl, congrArg (fun v : State => { v with code := s.code, res := s.res, cur := s.cur }) frame⟩

theorem programmed_configure (array : a < s.flt.length) (bank : k < (s.array a).banks.length) (p m : Word) (md sc en : Bool)
    (l : List Word) : s.Programmed ((s.configure a k p m md sc en).finish .ok l) a k ⟨p, m, md, sc, en, true⟩ l := by
  rw [configure_eq]
  exact programmed_of_bankBecomes (bankBecomes_setArray array bank _) rfl

theorem programmed_setActive (array : a < s.flt.length) (bank : k < (s.array a).banks.length) (v : Bool) :
    s.Programmed ((s.setActive a k v).finish .ok []) a k { s.bank a k with fa := v } [] := by
  rw [setActive_eq]
  exact programmed_of_bankBecomes (bankBecomes_setArray array bank _) rfl

/-- A programming command returns the pattern and the mask it wrote (R83). -/
theorem programmed_programBank (fits : s.Fits) (present : s.cfg.hasDevice d = true) (owned : s.ownsBank d k = true)
    (p m : Word) (md sc en : Bool) :
    s.Programmed (programBank d k p m md sc en s) (s.farrayOf d) k ⟨p, m, md, sc, en, true⟩ [p, m] := by
  obtain ⟨array, bank⟩ := fits.owned_inRange present owned
  rw [programBank, State.finishProgram, bank_configure_self _ _ _ _ _ _ array bank]
  exact programmed_configure array bank p m md sc en [p, m]

/-- A change of one owned bank changes one bit of `ENMASK[d]` at most (R30). -/
theorem enmask_of_bankBecomes {x : Bank} (becomes : s.BankBecomes t (s.farrayOf d) k x) (cfg : t.cfg = s.cfg)
    (owned : s.ownsBank d k = true) (j : Nat) : t.enmask d j = if j = k then x.fa else s.enmask d j := by
  obtain ⟨self, _, other, _⟩ := becomes
  rw [State.enmask, State.enmask, ownsBank_eq_of_cfg cfg, farrayOf_eq_of_cfg cfg]
  by_cases h : j = k
  · rw [if_pos h, h, self, owned, Bool.true_and]
  · rw [if_neg h, other _ _ (.inr h)]

/-! ## The owned banks (R166) -/

theorem clearRange_getD_of_mem (lo hi : Nat) (l : List Bank) (i k : Nat) (h : lo ≤ i + k ∧ i + k ≤ hi) :
    (clearRange lo hi i l).getD k Bank.reset = Bank.reset := by
  induction l generalizing i k with
  | nil => rfl
  | cons x l ih =>
    cases k with
    | zero => simpa [clearRange] using fun outside => absurd h.2 (Nat.not_le_of_lt (outside h.1))
    | succ k => simpa [clearRange] using ih (i + 1) k (by omega)

/-- An array that does not exist reads as locked, with banks at reset. -/
theorem array_of_length_le (h : s.flt.length ≤ a) : s.array a = FilterArray.absent := by
  rw [State.array, List.getD_eq_default _ _ h]

theorem bank_clearOwned_of_owned (owned : s.ownsBank d k = true) : (s.clearOwned d).bank (s.farrayOf d) k = Bank.reset := by
  rw [ownsBank_iff] at owned
  rw [clearOwned_eq, State.bank]
  rcases Nat.lt_or_ge (s.farrayOf d) s.flt.length with h | h
  · rw [array_setArray_self _ _ h]
    exact clearRange_getD_of_mem _ _ _ _ _ (by omega)
  · rw [setArray_of_length_le _ _ h, array_of_length_le h]
    rfl

theorem ownedCleared_clearOwned (s : State) (d : Nat) : s.OwnedCleared (s.clearOwned d) d := by
  refine ⟨fun a k => ?_, ?_, fun a other => ?_⟩
  · split
    · rename_i h
      rw [h.1, bank_clearOwned_of_owned h.2]
    · rename_i h
      exact bank_clearOwned_of_not_owned s (by simpa [imp_iff_not_or] using h)
  · rw [clearOwned_eq]
    rcases Nat.lt_or_ge (s.farrayOf d) s.flt.length with h | h
    · rw [array_setArray_self _ _ h]
    · rw [setArray_of_length_le _ _ h, array_of_length_le h]
      rfl
  · rw [clearOwned_eq, array_setArray_ne _ _ (Ne.symm other)]

end Machine
end Sys2Proof
end

section
/-!
SUPPORT. The filter commands (spec/43_filter.md R154 to R165): the checks each begins with, and one rule per outcome of its one
step on an owned bank.
-/

namespace Sys2Proof
namespace Machine

variable {s : State} {i : Instr} {d k : Nat}

/-! ## Operand checks (R151) -/

theorem stdPair_iff (v w : Word) : (stdRange v && stdRange w) = true ↔ v.toNat ≤ 0x7FF ∧ w.toNat ≤ 0x7FF := by
  simp [stdRange]

theorem extPair_iff (v w : Word) : (extRange v && extRange w) = true ↔ v.toNat ≤ 0x1FFFFFFF ∧ w.toNat ≤ 0x1FFFFFFF := by
  simp [extRange]

theorem stdFour_iff (s : State) :
    (stdRange (s.argWord 0) && stdRange (s.argWord 1) && stdRange (s.argWord 2) && stdRange (s.argWord 3)) = true ↔
    ∀ j < 4, (s.arg.get j).toNat ≤ 0x7FF := by
  simp only [stdRange, Bool.and_eq_true, decide_eq_true_eq, Nat.forall_lt_succ_right, Nat.not_lt_zero, false_imp_iff,
    forall_const, true_and]
  rfl

/-- The reserved bits `31 .. n` of an operand are 0 exactly when it is below `2 ^ n`. -/
theorem reserved_eq_zero_iff (w : Word) {n len : Nat} (width : n + len = 32) : w.extractLsb' n len = 0 ↔ w.toNat < 2 ^ n := by
  have small : w.toNat / 2 ^ n < 2 ^ len := by
    rw [Nat.div_lt_iff_lt_mul (Nat.two_pow_pos n), ← Nat.pow_add, Nat.add_comm, width]
    exact w.isLt
  rw [BitVec.ofNat_eq_ofNat, ← BitVec.toNat_inj, BitVec.extractLsb'_toNat, Nat.shiftRight_eq_div_pow,
    Nat.mod_eq_of_lt small, BitVec.toNat_zero, Nat.div_eq_zero_iff_lt (Nat.two_pow_pos n)]

/-- An operand that passes its check is its bit 0. -/
theorem toNat_idType {w : Word} (good : w.toNat < 2) : (w.getLsbD 0).toNat = w.toNat := by
  rw [toNat_getLsbD]
  omega

/-- The IDE bit of such an operand (R161). -/
theorem ideBit_idType {w : Word} (good : w.toNat < 2) : bitWord (w.getLsbD 0) <<< 2 = BitVec.ofNat 32 (4 * w.toNat) := by
  rw [← toNat_idType good]
  cases w.getLsbD 0 <;> rfl

/-! ## The checks a filter command begins with -/

theorem single_pre_of (start : s.pos = .start) (ready : s.Ready d) (owned : s.ownsBank d k = true) (u : State) :
    single s (pre d k s u) = .next u := by
  rw [single_of_start _ start, pre_of u ready.1 ready.2 owned]

theorem single_whenRunning_of (start : s.pos = .start) (ready : s.Ready d) (u : State) :
    single s (whenRunning d s u) = .next u := by
  rw [single_of_start _ start, whenRunning_of_ready ready u]

/-- A command whose one step is the lifecycle check with some effect behind it. -/
theorem startsOnRunning_of_single {body : State → State} (e : ∀ s, exec i s = single s (whenRunning d s (body s))) :
    StartsOnRunning i d := by
  intro s start
  have checks : s.ChecksRunning d (exec i s) := ⟨_, (e s).trans (single_of_start _ start)⟩
  exact ⟨checks.checksDevice.absent, checks.not_running⟩

/-- A command whose one step is the checks of R151 with some effect behind them. -/
theorem startsOnOwnedBank_of_single {body : State → State} (e : ∀ s, exec i s = single s (pre d k s (body s))) :
    StartsOnOwnedBank i d k := by
  refine ⟨startsOnRunning_of_single e, fun s start ready other => ?_⟩
  rw [e, pre, single_whenRunning_of start ready, if_neg (by simp [other])]

/-! ## Programming commands: what they answer on an owned bank -/

section Owned

variable (start : s.pos = .start) (ready : s.Ready d) (owned : s.ownsBank d k = true)

include start ready owned

theorem exec_fltConfigure_reserved (bad : 8 ≤ (s.arg.get 2).toNat) :
    exec (.fltConfigure d k) s = .next (s.finish .errArg []) :=
  (single_pre_of start ready owned _).trans <| congrArg _ <| if_pos fun zero =>
    Nat.not_lt_of_le bad ((reserved_eq_zero_iff (s.arg.get 2) rfl).1 zero)

theorem exec_fltConfigure (good : (s.arg.get 2).toNat < 8) :
    exec (.fltConfigure d k) s = .next (programBank d k (s.arg.get 0) (s.arg.get 1) ((s.arg.get 2).getLsbD 0)
      ((s.arg.get 2).getLsbD 1) ((s.arg.get 2).getLsbD 2) s) :=
  (single_pre_of start ready owned _).trans <| congrArg _ <| if_neg <| not_not.2 <|
    (reserved_eq_zero_iff (s.arg.get 2) rfl).2 good

theorem exec_fltMask32Std_range (bad : ¬ ((s.arg.get 0).toNat ≤ 0x7FF ∧ (s.arg.get 1).toNat ≤ 0x7FF)) :
    exec (.fltMask32Std d k) s = .next (s.finish .errRange []) :=
  (single_pre_of start ready owned _).trans <| congrArg _ <| if_neg <| bad ∘ (stdPair_iff _ _).1

theorem exec_fltMask32Std (good : (s.arg.get 0).toNat ≤ 0x7FF ∧ (s.arg.get 1).toNat ≤ 0x7FF) :
    exec (.fltMask32Std d k) s =
      .next (programBank d k (p32s (s.arg.get 0) false) (m32s (s.arg.get 1)) false true true s) :=
  (single_pre_of start ready owned _).trans <| congrArg _ <| if_pos <| (stdPair_iff _ _).2 good

theorem exec_fltMask32Ext_range (bad : ¬ ((s.arg.get 0).toNat ≤ 0x1FFFFFFF ∧ (s.arg.get 1).toNat ≤ 0x1FFFFFFF)) :
    exec (.fltMask32Ext d k) s = .next (s.finish .errRange []) :=
  (single_pre_of start ready owned _).trans <| congrArg _ <| if_neg <| bad ∘ (extPair_iff _ _).1

theorem exec_fltMask32Ext (good : (s.arg.get 0).toNat ≤ 0x1FFFFFFF ∧ (s.arg.get 1).toNat ≤ 0x1FFFFFFF) :
    exec (.fltMask32Ext d k) s =
      .next (programBank d k (p32x (s.arg.get 0) false) (m32x (s.arg.get 1)) false true true s) :=
  (single_pre_of start ready owned _).trans <| congrArg _ <| if_pos <| (extPair_iff _ _).2 good

theorem exec_fltList32Std_range (bad : ¬ ((s.arg.get 0).toNat ≤ 0x7FF ∧ (s.arg.get 1).toNat ≤ 0x7FF)) :
    exec (.fltList32Std d k) s = .next (s.finish .errRange []) :=
  (single_pre_of start ready owned _).trans <| congrArg _ <| if_neg <| bad ∘ (stdPair_iff _ _).1

theorem exec_fltList32Std_reserved (good : (s.arg.get 0).toNat ≤ 0x7FF ∧ (s.arg.get 1).toNat ≤ 0x7FF)
    (bad : 4 ≤ (s.arg.get 2).toNat) : exec (.fltList32Std d k) s = .next (s.finish .errArg []) :=
  (single_pre_of start ready owned _).trans <| congrArg _ <| (if_pos <| (stdPair_iff _ _).2 good).trans <| if_pos fun zero =>
    Nat.not_lt_of_le bad ((reserved_eq_zero_iff (s.arg.get 2) rfl).1 zero)

theorem exec_fltList32Std (good : (s.arg.get 0).toNat ≤ 0x7FF ∧ (s.arg.get 1).toNat ≤ 0x7FF)
    (flags : (s.arg.get 2).toNat < 4) :
    exec (.fltList32Std d k) s = .next (programBank d k (p32s (s.arg.get 0) ((s.arg.get 2).getLsbD 0))
      (p32s (s.arg.get 1) ((s.arg.get 2).getLsbD 1)) true true true s) :=
  (single_pre_of start ready owned _).trans <| congrArg _ <| (if_pos <| (stdPair_iff _ _).2 good).trans <| if_neg <|
    not_not.2 <| (reserved_eq_zero_iff (s.arg.get 2) rfl).2 flags

theorem exec_fltList32Ext_range (bad : ¬ ((s.arg.get 0).toNat ≤ 0x1FFFFFFF ∧ (s.arg.get 1).toNat ≤ 0x1FFFFFFF)) :
    exec (.fltList32Ext d k) s = .next (s.finish .errRange []) :=
  (single_pre_of start ready owned _).trans <| congrArg _ <| if_neg <| bad ∘ (extPair_iff _ _).1

theorem exec_fltList32Ext_reserved (good : (s.arg.get 0).toNat ≤ 0x1FFFFFFF ∧ (s.arg.get 1).toNat ≤ 0x1FFFFFFF)
    (bad : 4 ≤ (s.arg.get 2).toNat) : exec (.fltList32Ext d k) s = .next (s.finish .errArg []) :=
  (single_pre_of start ready owned _).trans <| congrArg _ <| (if_pos <| (extPair_iff _ _).2 good).trans <| if_pos fun zero =>
    Nat.not_lt_of_le bad ((reserved_eq_zero_iff (s.arg.get 2) rfl).1 zero)

theorem exec_fltList32Ext (good : (s.arg.get 0).toNat ≤ 0x1FFFFFFF ∧ (s.arg.get 1).toNat ≤ 0x1FFFFFFF)
    (flags : (s.arg.get 2).toNat < 4) :
    exec (.fltList32Ext d k) s = .next (programBank d k (p32x (s.arg.get 0) ((s.arg.get 2).getLsbD 0))
      (p32x (s.arg.get 1) ((s.arg.get 2).getLsbD 1)) true true true s) :=
  (single_pre_of start ready owned _).trans <| congrArg _ <| (if_pos <| (extPair_iff _ _).2 good).trans <| if_neg <|
    not_not.2 <| (reserved_eq_zero_iff (s.arg.get 2) rfl).2 flags

theorem exec_fltMask16_range (bad : ¬ ∀ j < 4, (s.arg.get j).toNat ≤ 0x7FF) :
    exec (.fltMask16 d k) s = .next (s.finish .errRange []) :=
  (single_pre_of start ready owned _).trans <| congrArg _ <| if_neg <| bad ∘ (stdFour_iff s).1

theorem exec_fltMask16 (good : ∀ j < 4, (s.arg.get j).toNat ≤ 0x7FF) :
    exec (.fltMask16 d k) s = .next (programBank d k (halves (p16 (s.arg.get 2) false) (p16 (s.arg.get 0) false))
      (halves (m16 (s.arg.get 3)) (m16 (s.arg.get 1))) false false true s) :=
  (single_pre_of start ready owned _).trans <| congrArg _ <| if_pos <| (stdFour_iff s).2 good

theorem exec_fltList16_range (bad : ¬ ∀ j < 4, (s.arg.get j).toNat ≤ 0x7FF) :
    exec (.fltList16 d k) s = .next (s.finish .errRange []) :=
  (single_pre_of start ready owned _).trans <| congrArg _ <| if_neg <| bad ∘ (stdFour_iff s).1

theorem exec_fltList16_reserved (good : ∀ j < 4, (s.arg.get j).toNat ≤ 0x7FF) (bad : 16 ≤ (s.arg.get 4).toNat) :
    exec (.fltList16 d k) s = .next (s.finish .errArg []) :=
  (single_pre_of start ready owned _).trans <| congrArg _ <| (if_pos <| (stdFour_iff s).2 good).trans <| if_pos fun zero =>
    Nat.not_lt_of_le bad ((reserved_eq_zero_iff (s.arg.get 4) rfl).1 zero)

/-- Entry `j` of `FLT_LIST16`, with its own `rtr` bit (R160). -/
def State.listEntry (s : State) (j : Nat) : Word := p16 (s.arg.get j) ((s.arg.get 4).getLsbD j)

theorem exec_fltList16 (good : ∀ j < 4, (s.arg.get j).toNat ≤ 0x7FF) (flags : (s.arg.get 4).toNat < 16) :
    exec (.fltList16 d k) s = .next (programBank d k (halves (s.listEntry 1) (s.listEntry 0))
      (halves (s.listEntry 3) (s.listEntry 2)) true false true s) :=
  (single_pre_of start ready owned _).trans <| congrArg _ <| (if_pos <| (stdFour_iff s).2 good).trans <| if_neg <|
    not_not.2 <| (reserved_eq_zero_iff (s.arg.get 4) rfl).2 flags

/-! ## Toggles and reading -/

theorem exec_fltEnable_unconfigured (never : (s.bank (s.farrayOf d) k).fcfg = false) :
    exec (.fltEnable d k) s = .next (s.finish .errArg []) :=
  (single_pre_of start ready owned _).trans <| congrArg _ <| if_neg (by simp [never])

theorem exec_fltEnable (configured : (s.bank (s.farrayOf d) k).fcfg = true) :
    exec (.fltEnable d k) s = .next ((s.setActive (s.farrayOf d) k true).finish .ok []) :=
  (single_pre_of start ready owned _).trans <| congrArg _ <| if_pos configured

theorem exec_fltDisable : exec (.fltDisable d k) s = .next ((s.setActive (s.farrayOf d) k false).finish .ok []) :=
  single_pre_of start ready owned _

theorem exec_fltRead : exec (.fltRead d k) s = .next (s.finish .ok
    [(s.bank (s.farrayOf d) k).fr1, (s.bank (s.farrayOf d) k).fr2, (s.bank (s.farrayOf d) k).control]) :=
  single_pre_of start ready owned _

end Owned

/-! ## Commands that name no bank -/

section Running

variable (start : s.pos = .start) (ready : s.Ready d)

include start ready

theorem exec_fltAcceptAll_reserved (bad : 2 ≤ (s.arg.get 0).toNat) :
    exec (.fltAcceptAll d) s = .next (s.finish .errArg []) :=
  (single_whenRunning_of start ready _).trans <| congrArg _ <| if_pos fun zero =>
    Nat.not_lt_of_le bad ((reserved_eq_zero_iff (s.arg.get 0) rfl).1 zero)

theorem exec_fltAcceptAll_noBank (good : (s.arg.get 0).toNat < 2)
    (last : (s.desc d).maxBank < (s.desc d).firstBank + (s.arg.get 0).toNat) :
    exec (.fltAcceptAll d) s = .next (s.finish .errBank []) := by
  rw [← toNat_idType good] at last
  exact (single_whenRunning_of start ready _).trans <| congrArg _ <|
    (if_neg <| not_not.2 <| (reserved_eq_zero_iff (s.arg.get 0) rfl).2 good).trans <| if_pos last

/-- The bank programmed has the IDE bit as pattern, where the operand asks for extended frames, and as mask. -/
theorem exec_fltAcceptAll (fits : s.Fits) (good : (s.arg.get 0).toNat < 2)
    (last : (s.desc d).firstBank + (s.arg.get 0).toNat ≤ (s.desc d).maxBank) :
    exec (.fltAcceptAll d) s = .next
      ((s.configure (s.farrayOf d) ((s.desc d).firstBank + (s.arg.get 0).toNat)
        (BitVec.ofNat 32 (4 * (s.arg.get 0).toNat)) 4 false true true).finish .ok
        [BitVec.ofNat 32 (4 * (s.arg.get 0).toNat), 4, BitVec.ofNat 32 ((s.desc d).firstBank + (s.arg.get 0).toNat)]) := by
  obtain ⟨array, bank⟩ := fits.owned_inRange ready.1 (ownsBank_iff.2 ⟨Nat.le_add_right _ _, last⟩)
  have written := bank_configure_self s (BitVec.ofNat 32 (4 * (s.arg.get 0).toNat)) 4 false true true array bank
  rw [← ideBit_idType good] at written ⊢
  rw [← toNat_idType good] at last written ⊢
  exact (single_whenRunning_of start ready _).trans <| congrArg _ <|
    (if_neg <| not_not.2 <| (reserved_eq_zero_iff (s.arg.get 0) rfl).2 good).trans <|
    (if_neg <| Nat.not_lt_of_le last).trans <| congrArg (fun x : Bank => State.finish _ .ok [x.fr1, x.fr2, _]) written

theorem exec_fltClearAll : exec (.fltClearAll d) s = .next ((s.clearOwned d).finish .ok []) :=
  single_whenRunning_of start ready _

end Running

/-! ## Words of the results -/

theorem listEntry_lt {j : Nat} (std : (s.arg.get j).toNat ≤ 0x7FF) : (s.listEntry j).toNat < 2 ^ 16 := by
  rw [State.listEntry]
  exact p16_lt _ std

/-- The high sub-filter in the upper half (R78). -/
theorem toNat_halves {hi lo : Word} (high : hi.toNat < 2 ^ 16) (low : lo.toNat < 2 ^ 16) :
    (halves hi lo).toNat = hi.toNat * 65536 + lo.toNat :=
  toNat_shiftLeft_or rfl rfl low (by omega)

/-- The control word as the sum of its four bits (R79). -/
theorem toNat_control (x : Bank) :
    x.control.toNat = x.fm.toNat + 2 * x.fs.toNat + 4 * x.fa.toNat + 8 * x.fcfg.toNat := by
  have sum : ∀ fm fs fa fcfg : Bool, (bitWord fm ||| bitWord fs <<< 1 ||| bitWord fa <<< 2 ||| bitWord fcfg <<< 3).toNat =
      fm.toNat + 2 * fs.toNat + 4 * fa.toNat + 8 * fcfg.toNat := by decide
  exact sum ..

end Machine

open Machine

/-- Settles O24: the rules of the three commands, and what `programBank` leaves (`programmed_programBank`). -/
theorem fltConfigureAndMask32 : Obligations.FltConfigureAndMask32 := by
  refine ⟨fun d k => ⟨startsOnOwnedBank_of_single fun _ => rfl, fun s fits start ready owned =>
      ⟨exec_fltConfigure_reserved start ready owned, fun good => ?configure⟩⟩,
    fun d k => ⟨startsOnOwnedBank_of_single fun _ => rfl, startsOnOwnedBank_of_single fun _ => rfl,
      fun s fits start ready owned => ⟨exec_fltMask32Std_range start ready owned, fun id mask => ?std,
        exec_fltMask32Ext_range start ready owned, fun id mask => ?ext⟩⟩⟩
  case configure => exact ⟨_, exec_fltConfigure start ready owned good, programmed_programBank fits ready.1 owned ..⟩
  case std => exact ⟨_, exec_fltMask32Std start ready owned ⟨id, mask⟩, programmed_programBank fits ready.1 owned ..⟩
  case ext => exact ⟨_, exec_fltMask32Ext start ready owned ⟨id, mask⟩, programmed_programBank fits ready.1 owned ..⟩

/-- Settles O25: the rules of the two commands, and what `programBank` leaves. -/
theorem fltList32 : Obligations.FltList32 := by
  refine fun d k => ⟨startsOnOwnedBank_of_single fun _ => rfl, startsOnOwnedBank_of_single fun _ => rfl,
    fun s fits start ready owned =>
      ⟨exec_fltList32Std_range start ready owned, fun a b => ⟨exec_fltList32Std_reserved start ready owned ⟨a, b⟩,
        fun flags => ?std⟩,
      exec_fltList32Ext_range start ready owned, fun a b => ⟨exec_fltList32Ext_reserved start ready owned ⟨a, b⟩,
        fun flags => ?ext⟩⟩⟩
  case std => exact ⟨_, exec_fltList32Std start ready owned ⟨a, b⟩ flags, programmed_programBank fits ready.1 owned ..⟩
  case ext => exact ⟨_, exec_fltList32Ext start ready owned ⟨a, b⟩ flags, programmed_programBank fits ready.1 owned ..⟩

/-- Settles O26: the rules of the two commands; the halves in range put together (`toNat_halves`). -/
theorem flt16 : Obligations.Flt16 := by
  refine fun d k => ⟨startsOnOwnedBank_of_single fun _ => rfl, startsOnOwnedBank_of_single fun _ => rfl,
    fun s fits start ready owned =>
      ⟨?range, fun good => ⟨?mask, exec_fltList16_reserved start ready owned good, ?list⟩⟩⟩
  case range =>
    rintro ⟨j, hj, bad⟩
    have bad : ¬ ∀ j < 4, (s.arg.get j).toNat ≤ 0x7FF := fun good => Nat.not_lt_of_le (good j hj) bad
    exact ⟨exec_fltMask16_range start ready owned bad, exec_fltList16_range start ready owned bad⟩
  case mask =>
    have pattern (j : Nat) (hj : j < 4) := p16_lt false (good j hj)
    have mask (j : Nat) (hj : j < 4) := m16_lt (good j hj)
    exact ⟨_, _, exec_fltMask16 start ready owned good, programmed_programBank fits ready.1 owned .., rfl, rfl, rfl, rfl,
      toNat_halves (pattern 2 (by decide)) (pattern 0 (by decide)),
      toNat_halves (mask 3 (by decide)) (mask 1 (by decide))⟩
  case list =>
    intro flags
    have entry (j : Nat) (hj : j < 4) := listEntry_lt (good j hj)
    exact ⟨_, _, exec_fltList16 start ready owned good flags, programmed_programBank fits ready.1 owned .., rfl, rfl, rfl,
      rfl, toNat_halves (entry 1 (by decide)) (entry 0 (by decide)),
      toNat_halves (entry 3 (by decide)) (entry 2 (by decide))⟩

/-- Settles O27: the rules of the three commands; a toggle changes one bank, so one bit of `ENMASK`
(`enmask_of_bankBecomes`). -/
theorem fltAcceptAllAndToggle : Obligations.FltAcceptAllAndToggle := by
  refine ⟨fun d => ⟨startsOnRunning_of_single fun _ => rfl, fun s fits start ready =>
      ⟨exec_fltAcceptAll_reserved start ready, exec_fltAcceptAll_noBank start ready, fun good last => ?acceptAll⟩⟩,
    fun d k => ⟨startsOnOwnedBank_of_single fun _ => rfl, startsOnOwnedBank_of_single fun _ => rfl,
      fun s fits start ready owned =>
        ⟨exec_fltEnable_unconfigured start ready owned, fun configured => ?enable, ?disable⟩⟩⟩
  case acceptAll =>
    obtain ⟨array, bank⟩ := fits.owned_inRange ready.1 (ownsBank_iff.2 ⟨Nat.le_add_right _ _, last⟩)
    exact ⟨_, exec_fltAcceptAll start ready fits good last, programmed_configure array bank ..⟩
  case enable =>
    obtain ⟨array, bank⟩ := fits.owned_inRange ready.1 owned
    have programmed := programmed_setActive array bank true
    refine ⟨_, exec_fltEnable start ready owned configured, programmed, fun j => ?_⟩
    rw [enmask_of_bankBecomes programmed.1 rfl owned]
    by_cases h : j = k <;> simp [h]
  case disable =>
    obtain ⟨array, bank⟩ := fits.owned_inRange ready.1 owned
    have programmed := programmed_setActive array bank false
    refine ⟨_, exec_fltDisable start ready owned, programmed, fun j => ?_⟩
    rw [enmask_of_bankBecomes programmed.1 rfl owned]
    by_cases h : j = k <;> simp [h]

/-- Settles O28: `clear_owned` resets the owned banks (`ownedCleared_clearOwned`), so `ENMASK` is 0; `FLT_READ` returns a
bank's registers and the sum of its bits. -/
theorem fltClearAndRead : Obligations.FltClearAndRead := by
  refine ⟨fun d => ⟨startsOnRunning_of_single fun _ => rfl, fun s fits start ready => ?_⟩,
    fun d k => ⟨startsOnOwnedBank_of_single fun _ => rfl, fun s start ready owned => ?_⟩⟩
  · refine ⟨_, exec_fltClearAll start ready, ownedCleared_clearOwned s d, fun k => ?_, rfl, rfl, rfl, rfl⟩
    rw [← Bool.not_eq_true, enmask_iff]
    rintro ⟨range, active⟩
    have cleared : (s.clearOwned d).bank (s.farrayOf d) k = Bank.reset := bank_clearOwned_of_owned (ownsBank_iff.2 range)
    exact absurd (congrArg Bank.fa cleared ▸ active) (by decide)
  · exact ⟨_, _, exec_fltRead start ready owned, rfl, rfl, rfl, rfl, toNat_control _⟩

end Sys2Proof
end

section
/-!
SUPPORT. What the programmed banks accept (spec/43_filter.md R170): every pattern carries the IDE bit of its ID type and every
mask compares it, so no filter crosses types; and a mask of all identifier bits compares the whole identifier.
-/

namespace Sys2Proof
namespace Machine

variable {s t : State} {i : Instr} {d k : Nat} {f : Frame} {v w m : Word} {rtr : Bool}

/-! ## The IDE bit of each word: bit 2 of a word, bit 3 of a half (R77, R78) -/

theorem ide_p32s : (p32s v rtr).getLsbD 2 = false := by cases rtr <;> simp [p32s, bitWord]

theorem ide_p32x : (p32x v rtr).getLsbD 2 = true := by cases rtr <;> simp [p32x, bitWord]

theorem ide_m32s : (m32s m).getLsbD 2 = true := by simp [m32s]

theorem ide_m32x : (m32x m).getLsbD 2 = true := by simp [m32x]

theorem ide_p16 : (p16 v rtr).getLsbD 3 = false := by cases rtr <;> simp [p16, bitWord]

theorem ide_listEntry (s : State) (j : Nat) : (s.listEntry j).getLsbD 3 = false := by rw [State.listEntry, ide_p16]

theorem ide_m16 : (m16 m).getLsbD 3 = true := by simp [m16]

theorem Frame.ide_w32 (f : Frame) : f.w32.getLsbD 2 = f.ide.bit := by
  cases ide : f.ide with
  | std => rw [w32_std ide, ide_p32s, IdType.bit]
  | ext => rw [w32_ext ide, ide_p32x, IdType.bit]

theorem Frame.ide_h16 (f : Frame) : f.h16.getLsbD 3 = f.ide.bit := by
  cases ide : f.ide <;> cases rtr : f.rtr.bit <;> simp [h16, ide, rtr, IdType.bit]

theorem loHalf_halves {j : Nat} (h : j < 16) : (loHalf (halves v w)).getLsbD j = w.getLsbD j := by
  rw [getLsbD_loHalf _ h, halves, BitVec.getLsbD_or]
  simp [h]

theorem hiHalf_halves {j : Nat} (h : j < 16) (low : w.toNat < 2 ^ 16) : (hiHalf (halves v w)).getLsbD j = v.getLsbD j := by
  have clear : w.getLsbD (16 + j) = false :=
    Nat.testBit_lt_two_pow (Nat.lt_of_lt_of_le low (Nat.pow_le_pow_right (by decide) (Nat.le_add_right 16 j)))
  rw [getLsbD_hiHalf _ h, halves, BitVec.getLsbD_or, clear]
  simp
  omega

/-! ## Type separation (R170(c)): a bank whose patterns have one IDE bit accepts one ID type -/

namespace Bank

variable {x : Bank} {b : Bool}

theorem ide_of_mask32 (h : x.accepts f = true) (fa : x.fa = true) (fm : x.fm = false) (fs : x.fs = true)
    (pattern : x.fr1.getLsbD 2 = b) (mask : x.fr2.getLsbD 2 = true) : f.ide.bit = b := by
  rw [accepts_mask32 fa fm fs, and_eq_and_iff] at h
  rw [← f.ide_w32, h 2 (by decide) mask, pattern]

theorem ide_of_list32 (h : x.accepts f = true) (fa : x.fa = true) (fm : x.fm = true) (fs : x.fs = true)
    (first : x.fr1.getLsbD 2 = b) (second : x.fr2.getLsbD 2 = b) : f.ide.bit = b := by
  rw [accepts_list32 fa fm fs] at h
  rw [← f.ide_w32]
  rcases h with h | h <;> rw [h]
  · exact first
  · exact second

/-- Two patterns in one register and two masks in the other. -/
theorem ide_of_mask16 {p₀ p₁ m₀ m₁ : Word} (h : x.accepts f = true) (fa : x.fa = true) (fm : x.fm = false)
    (fs : x.fs = false) (patterns : x.fr1 = halves p₁ p₀) (masks : x.fr2 = halves m₁ m₀)
    (lowPattern : p₀.toNat < 2 ^ 16) (lowMask : m₀.toNat < 2 ^ 16) (ide : p₀.getLsbD 3 = b ∧ p₁.getLsbD 3 = b)
    (compared : m₀.getLsbD 3 = true ∧ m₁.getLsbD 3 = true) : f.ide.bit = b := by
  rw [accepts_mask16 fa fm fs, and_eq_and_iff, and_eq_and_iff, patterns, masks] at h
  rw [← f.ide_h16]
  rcases h with h | h
  · rw [h 3 (by decide) (by rw [loHalf_halves (by decide), compared.1]), loHalf_halves (by decide), ide.1]
  · rw [h 3 (by decide) (by rw [hiHalf_halves (by decide) lowMask, compared.2]), hiHalf_halves (by decide) lowPattern, ide.2]

/-- Four entries, two in each register. -/
theorem ide_of_list16 {e : Nat → Word} (h : x.accepts f = true) (fa : x.fa = true) (fm : x.fm = true) (fs : x.fs = false)
    (first : x.fr1 = halves (e 1) (e 0)) (second : x.fr2 = halves (e 3) (e 2)) (low : ∀ j < 4, (e j).toNat < 2 ^ 16)
    (ide : ∀ j, (e j).getLsbD 3 = b) : f.ide.bit = b := by
  rw [accepts_list16 fa fm fs, first, second] at h
  rw [← f.ide_h16]
  rcases h with h | h | h | h <;> rw [h]
  · rw [loHalf_halves (by decide), ide]
  · rw [hiHalf_halves (by decide) (low 0 (by decide)), ide]
  · rw [loHalf_halves (by decide), ide]
  · rw [hiHalf_halves (by decide) (low 2 (by decide)), ide]

end Bank

theorem IdType.eq_std_of_bit {y : IdType} (h : y.bit = false) : y = .std := by
  cases y with
  | std => rfl
  | ext => cases h

theorem IdType.eq_ext_of_bit {y : IdType} (h : y.bit = true) : y = .ext := by
  cases y with
  | std => cases h
  | ext => rfl

/-! ## What a mask compares: the IDE bit and the identifier under the mask, not the RTR bit (R152) -/

/-- Bit by bit; so too for extended words. -/
theorem p32s_and_m32s : p32s v rtr &&& m32s m = p32s (v &&& m) false := by
  apply BitVec.eq_of_getLsbD_eq
  intro j hj
  cases rtr <;> simp [p32s, m32s, bitWord] <;> interval_cases j <;> simp

theorem p32x_and_m32x : p32x v rtr &&& m32x m = p32x (v &&& m) false := by
  apply BitVec.eq_of_getLsbD_eq
  intro j hj
  cases rtr <;> simp [p32x, m32x, bitWord] <;> interval_cases j <;> simp

/-- A mask of all bits of the range keeps a value in range. -/
theorem and_eq_self_of_le {n : Nat} (mask : m.toNat = 2 ^ n - 1) (range : v.toNat ≤ 2 ^ n - 1) : v &&& m = v := by
  have := Nat.two_pow_pos n
  rw [← BitVec.toNat_inj, BitVec.toNat_and, mask, Nat.and_two_pow_sub_one_eq_mod, Nat.mod_eq_of_lt (by omega)]

namespace Bank

/-- R170(b) for standard identifiers. -/
theorem accepts_exact_std (valid : f.valid = true) (range : v.toNat ≤ 0x7FF) (mask : m.toNat = 0x7FF) :
    Bank.accepts ⟨p32s v false, m32s m, false, true, true, true⟩ f = true ↔ f.ide = .std ∧ f.id.toNat = v.toNat := by
  have separate : Bank.accepts ⟨p32s v false, m32s m, false, true, true, true⟩ f = true → f.ide = .std :=
    fun h => IdType.eq_std_of_bit (ide_of_mask32 h rfl rfl rfl ide_p32s ide_m32s)
  rw [← and_iff_right_of_imp separate]
  refine and_congr_right fun std => ?_
  have id : (f.id.setWidth 32).toNat ≤ 0x7FF := Frame.toNat_id ▸ Frame.id_le_of_std valid std
  rw [accepts_mask32 rfl rfl rfl, Frame.w32_std std, p32s_and_m32s, p32s_and_m32s, and_eq_self_of_le (n := 11) mask id,
    and_eq_self_of_le (n := 11) mask range, ← BitVec.toNat_inj, toNat_p32s _ id, toNat_p32s _ range, Frame.toNat_id]
  omega

/-- R170(b) for extended identifiers. -/
theorem accepts_exact_ext (range : v.toNat ≤ 0x1FFFFFFF) (mask : m.toNat = 0x1FFFFFFF) :
    Bank.accepts ⟨p32x v false, m32x m, false, true, true, true⟩ f = true ↔ f.ide = .ext ∧ f.id.toNat = v.toNat := by
  have separate : Bank.accepts ⟨p32x v false, m32x m, false, true, true, true⟩ f = true → f.ide = .ext :=
    fun h => IdType.eq_ext_of_bit (ide_of_mask32 h rfl rfl rfl ide_p32x ide_m32x)
  rw [← and_iff_right_of_imp separate]
  refine and_congr_right fun ext => ?_
  rw [accepts_mask32 rfl rfl rfl, Frame.w32_ext ext, p32x_and_m32x, p32x_and_m32x,
    and_eq_self_of_le (n := 29) mask Frame.id_le, and_eq_self_of_le (n := 29) mask range, ← BitVec.toNat_inj,
    toNat_p32x _ Frame.id_le, toNat_p32x _ range, Frame.toNat_id]
  omega

end Bank

/-! ## A command that ended `OK` has programmed its bank -/

/-- A filter command that ended `OK` passed the checks of R151. -/
theorem checks_of_ok {u : State} (step : single s (pre d k s u) = .next t) (ok : t.code = .ok) :
    s.pos = .start ∧ s.Ready d ∧ s.ownsBank d k = true := by
  obtain ⟨start, rfl⟩ := single_eq_next.1 step
  rcases pre_cases d k s u with ⟨present, running, owned, _⟩ | ⟨c, failed, e⟩
  · exact ⟨start, ⟨present, running⟩, owned⟩
  · rw [e] at ok
    rcases failed with rfl | rfl | rfl <;> cases ok

/-- A command that ends with another status did not end `OK`. -/
theorem not_ok_of_refused {c : StatusCode} (step : exec i s = .next t) (ok : t.code = .ok)
    (refused : exec i s = .next (s.finish c [])) : c = .ok := by
  cases refused.symm.trans step
  exact ok

section Programmed

variable (fits : s.Fits) (ok : t.code = .ok)

include fits ok

theorem bank_of_fltMask32Std (step : exec (.fltMask32Std d k) s = .next t) :
    t.bank (s.farrayOf d) k = ⟨p32s (s.arg.get 0) false, m32s (s.arg.get 1), false, true, true, true⟩ := by
  obtain ⟨start, ready, owned⟩ := checks_of_ok step ok
  by_cases good : (s.arg.get 0).toNat ≤ 0x7FF ∧ (s.arg.get 1).toNat ≤ 0x7FF
  · cases (exec_fltMask32Std start ready owned good).symm.trans step
    exact (programmed_programBank fits ready.1 owned ..).1.1
  · cases not_ok_of_refused step ok (exec_fltMask32Std_range start ready owned good)

theorem bank_of_fltMask32Ext (step : exec (.fltMask32Ext d k) s = .next t) :
    t.bank (s.farrayOf d) k = ⟨p32x (s.arg.get 0) false, m32x (s.arg.get 1), false, true, true, true⟩ := by
  obtain ⟨start, ready, owned⟩ := checks_of_ok step ok
  by_cases good : (s.arg.get 0).toNat ≤ 0x1FFFFFFF ∧ (s.arg.get 1).toNat ≤ 0x1FFFFFFF
  · cases (exec_fltMask32Ext start ready owned good).symm.trans step
    exact (programmed_programBank fits ready.1 owned ..).1.1
  · cases not_ok_of_refused step ok (exec_fltMask32Ext_range start ready owned good)

theorem bank_of_fltList32Std (step : exec (.fltList32Std d k) s = .next t) :
    t.bank (s.farrayOf d) k = ⟨p32s (s.arg.get 0) ((s.arg.get 2).getLsbD 0), p32s (s.arg.get 1) ((s.arg.get 2).getLsbD 1),
      true, true, true, true⟩ := by
  obtain ⟨start, ready, owned⟩ := checks_of_ok step ok
  by_cases good : (s.arg.get 0).toNat ≤ 0x7FF ∧ (s.arg.get 1).toNat ≤ 0x7FF
  · rcases Nat.lt_or_ge (s.arg.get 2).toNat 4 with flags | reserved
    · cases (exec_fltList32Std start ready owned good flags).symm.trans step
      exact (programmed_programBank fits ready.1 owned ..).1.1
    · cases not_ok_of_refused step ok (exec_fltList32Std_reserved start ready owned good reserved)
  · cases not_ok_of_refused step ok (exec_fltList32Std_range start ready owned good)

theorem bank_of_fltList32Ext (step : exec (.fltList32Ext d k) s = .next t) :
    t.bank (s.farrayOf d) k = ⟨p32x (s.arg.get 0) ((s.arg.get 2).getLsbD 0), p32x (s.arg.get 1) ((s.arg.get 2).getLsbD 1),
      true, true, true, true⟩ := by
  obtain ⟨start, ready, owned⟩ := checks_of_ok step ok
  by_cases good : (s.arg.get 0).toNat ≤ 0x1FFFFFFF ∧ (s.arg.get 1).toNat ≤ 0x1FFFFFFF
  · rcases Nat.lt_or_ge (s.arg.get 2).toNat 4 with flags | reserved
    · cases (exec_fltList32Ext start ready owned good flags).symm.trans step
      exact (programmed_programBank fits ready.1 owned ..).1.1
    · cases not_ok_of_refused step ok (exec_fltList32Ext_reserved start ready owned good reserved)
  · cases not_ok_of_refused step ok (exec_fltList32Ext_range start ready owned good)

theorem bank_of_fltMask16 (step : exec (.fltMask16 d k) s = .next t) : (∀ j < 4, (s.arg.get j).toNat ≤ 0x7FF) ∧
    t.bank (s.farrayOf d) k = ⟨halves (p16 (s.arg.get 2) false) (p16 (s.arg.get 0) false),
      halves (m16 (s.arg.get 3)) (m16 (s.arg.get 1)), false, false, true, true⟩ := by
  obtain ⟨start, ready, owned⟩ := checks_of_ok step ok
  by_cases good : ∀ j < 4, (s.arg.get j).toNat ≤ 0x7FF
  · cases (exec_fltMask16 start ready owned good).symm.trans step
    exact ⟨good, (programmed_programBank fits ready.1 owned ..).1.1⟩
  · cases not_ok_of_refused step ok (exec_fltMask16_range start ready owned good)

theorem bank_of_fltList16 (step : exec (.fltList16 d k) s = .next t) : (∀ j < 4, (s.arg.get j).toNat ≤ 0x7FF) ∧
    t.bank (s.farrayOf d) k = ⟨halves (s.listEntry 1) (s.listEntry 0), halves (s.listEntry 3) (s.listEntry 2),
      true, false, true, true⟩ := by
  obtain ⟨start, ready, owned⟩ := checks_of_ok step ok
  by_cases good : ∀ j < 4, (s.arg.get j).toNat ≤ 0x7FF
  · rcases Nat.lt_or_ge (s.arg.get 4).toNat 16 with flags | reserved
    · cases (exec_fltList16 start ready owned good flags).symm.trans step
      exact ⟨good, (programmed_programBank fits ready.1 owned ..).1.1⟩
    · cases not_ok_of_refused step ok (exec_fltList16_reserved start ready owned good reserved)
  · cases not_ok_of_refused step ok (exec_fltList16_range start ready owned good)

end Programmed
end Machine

open Machine

/-- Settles O29: the bank a command leaves (`programmed_programBank`, or from its `OK` `bank_of_fltMask32Std` and the like)
accepts exactly its identifier (`Bank.accepts_exact_std`, `Bank.accepts_exact_ext`), or one ID type only, by the IDE bits. -/
theorem filterSemantics : Obligations.FilterSemantics := by
  refine ⟨fun s d k f fits start ready owned valid => ⟨fun id mask => ?exactStd, fun id mask => ?exactExt⟩,
    fun s t i d k f fits start valid step ok accepted => ⟨?std, ?ext⟩⟩
  case exactStd =>
    refine ⟨_, exec_fltMask32Std start ready owned ⟨id, mask.le⟩, ?_⟩
    rw [(programmed_programBank fits ready.1 owned ..).1.1]
    exact Bank.accepts_exact_std valid id mask
  case exactExt =>
    refine ⟨_, exec_fltMask32Ext start ready owned ⟨id, mask.le⟩, ?_⟩
    rw [(programmed_programBank fits ready.1 owned ..).1.1]
    exact Bank.accepts_exact_ext id mask
  case std =>
    refine fun command => IdType.eq_std_of_bit ?_
    rcases command with rfl | rfl | rfl | rfl
    · rw [bank_of_fltMask32Std fits ok step] at accepted
      exact Bank.ide_of_mask32 accepted rfl rfl rfl ide_p32s ide_m32s
    · rw [bank_of_fltList32Std fits ok step] at accepted
      exact Bank.ide_of_list32 accepted rfl rfl rfl ide_p32s ide_p32s
    · obtain ⟨good, bank⟩ := bank_of_fltMask16 fits ok step
      rw [bank] at accepted
      exact Bank.ide_of_mask16 accepted rfl rfl rfl rfl rfl (p16_lt _ (good 0 (by decide)))
        (m16_lt (good 1 (by decide))) ⟨ide_p16, ide_p16⟩ ⟨ide_m16, ide_m16⟩
    · obtain ⟨good, bank⟩ := bank_of_fltList16 fits ok step
      rw [bank] at accepted
      exact Bank.ide_of_list16 (e := s.listEntry) accepted rfl rfl rfl rfl rfl (fun j hj => listEntry_lt (good j hj))
        (ide_listEntry s)
  case ext =>
    refine fun command => IdType.eq_ext_of_bit ?_
    rcases command with rfl | rfl
    · rw [bank_of_fltMask32Ext fits ok step] at accepted
      exact Bank.ide_of_mask32 accepted rfl rfl rfl ide_p32x ide_m32x
    · rw [bank_of_fltList32Ext fits ok step] at accepted
      exact Bank.ide_of_list32 accepted rfl rfl rfl ide_p32x ide_p32x

end Sys2Proof
end

section
/-!
SUPPORT. Filter commands run twice (spec/43_filter.md R170(a), (d)): each change of an array made twice is the change made once,
and the checks and the operands of the second run are those of the first.
-/

namespace Sys2Proof
namespace Machine

variable {s t : State} {a d k : Nat}

/-! ## Changes made twice -/

theorem configure_configure (s : State) (a k : Nat) (p m : Word) (md sc en : Bool) :
    (s.configure a k p m md sc en).configure a k p m md sc en = s.configure a k p m md sc en := by
  rw [configure_eq, configure_eq]
  refine (setArray_bind s a _ fun y => { banks := y.banks.set k ⟨p, m, md, sc, en, true⟩, wp := true }).trans ?_
  rw [List.set_set]

/-- The banks of an array with `FA` of bank `k` set to `v` (R162, R163). -/
def setFa (k : Nat) (v : Bool) (l : List Bank) : List Bank := l.set k { l.getD k Bank.reset with fa := v }

theorem setActive_eq_setFa (s : State) (a k : Nat) (v : Bool) :
    s.setActive a k v = s.setArray a { banks := setFa k v (s.array a).banks, wp := true } := setActive_eq s a k v

theorem setFa_setFa (k : Nat) (v w : Bool) (l : List Bank) : setFa k w (setFa k v l) = setFa k w l := by
  rcases Nat.lt_or_ge k l.length with h | h
  · simp [setFa, List.getD_eq_getElem?_getD, h]
  · simp [setFa, List.set_eq_of_length_le h]

theorem setActive_setActive (s : State) (a k : Nat) (v w : Bool) :
    (s.setActive a k v).setActive a k w = s.setActive a k w := by
  rw [setActive_eq_setFa, setActive_eq_setFa, setActive_eq_setFa]
  refine (setArray_bind s a _ fun y => { banks := setFa k w y.banks, wp := true }).trans ?_
  rw [setFa_setFa]

theorem set_getD_self {α : Type} (l : List α) (n : Nat) (x : α) : l.set n (l.getD n x) = l := by
  rcases Nat.lt_or_ge n l.length with h | h
  · rw [List.getD_eq_getElem _ _ h, List.set_getElem_self]
  · exact List.set_eq_of_length_le h

/-- A toggle that finds its bank as it would leave it changes nothing, where the array is locked. -/
theorem setActive_of_fa {v : Bool} (fa : (s.bank a k).fa = v) (locked : (s.array a).wp = true) : s.setActive a k v = s := by
  rw [setActive_eq, ← fa, ← locked]
  show s.setArray a { banks := (s.array a).banks.set k ((s.array a).banks.getD k Bank.reset), wp := (s.array a).wp } = s
  rw [set_getD_self]
  show { s with flt := s.flt.set a (s.flt.getD a FilterArray.absent) } = s
  rw [set_getD_self]

/-- A toggle writes no register of its bank but `FA`, and no other bank (R162). -/
theorem bank_setActive_fa (s : State) (a k : Nat) (v w : Bool) :
    { (s.setActive a k v).bank a k with fa := w } = { s.bank a k with fa := w } := by
  rw [setActive_eq]
  rcases Nat.lt_or_ge a s.flt.length with ha | ha
  · rcases Nat.lt_or_ge k (s.array a).banks.length with hk | hk
    · rw [(bankBecomes_setArray ha hk _).1]
    · rw [State.bank, array_setArray_self _ _ ha, List.set_eq_of_length_le hk]
      rfl
  · rw [setArray_of_length_le _ _ ha]

theorem bank_setActive_fcfg (s : State) (a k : Nat) (v : Bool) :
    ((s.setActive a k v).bank a k).fcfg = (s.bank a k).fcfg :=
  (congrArg Bank.fcfg (bank_setActive_fa s a k v v) :)

theorem clearRange_clearRange (lo hi : Nat) (l : List Bank) (i : Nat) :
    clearRange lo hi i (clearRange lo hi i l) = clearRange lo hi i l := by
  induction l generalizing i with
  | nil => rfl
  | cons x l ih =>
    rw [clearRange, clearRange, ih]
    split <;> rfl

theorem clearOwned_clearOwned (s : State) (d : Nat) : (s.clearOwned d).clearOwned d = s.clearOwned d := by
  rw [clearOwned_eq, clearOwned_eq]
  refine (setArray_bind s _ _ fun y =>
    { banks := clearRange (s.desc d).firstBank (s.desc d).maxBank 0 y.banks, wp := true }).trans ?_
  rw [clearRange_clearRange]

/-! ## Effects that may be repeated -/

/-- The same command accepted again: `APP` stands at its first step. -/
def State.again (t : State) : State := { t with cur := some .start }

/-- `t` has what the checks and the operands of a command are read from as in `s`. -/
structure State.SameInputs (s t : State) : Prop where
  cfg : t.cfg = s.cfg
  dev : t.dev = s.dev
  arg : t.arg = s.arg

theorem State.SameInputs.argWord (h : s.SameInputs t) (j : Nat) : t.argWord j = s.argWord j := by
  rw [State.argWord, h.arg, State.argWord]

theorem State.SameInputs.again (h : s.SameInputs t) : s.SameInputs t.again := ⟨h.cfg, h.dev, h.arg⟩

/-- The effect leaves the inputs of its command, and made again it leaves what it left the first time. -/
structure Repeatable (f : State → State) : Prop where
  inputs : ∀ s : State, s.SameInputs (f s)
  again : ∀ s : State, f (f s).again = f s

namespace Repeatable

variable {f g : State → State}

theorem ended (c : StatusCode) : Repeatable fun s => s.finish c [] := ⟨fun _ => ⟨rfl, rfl, rfl⟩, fun _ => rfl⟩

/-- A check of the inputs comes out the same the second time. -/
theorem ite {c : State → Prop} [∀ s, Decidable (c s)] (check : ∀ {s t : State}, s.SameInputs t → (c t ↔ c s))
    (hf : Repeatable f) (hg : Repeatable g) : Repeatable fun s => if c s then f s else g s where
  inputs s := by
    split
    · exact hf.inputs s
    · exact hg.inputs s
  again s := by
    by_cases h : c s
    · simp only [if_pos h, if_pos ((check (hf.inputs s).again).2 h), hf.again]
    · simp only [if_neg h, if_neg (mt (check (hg.inputs s).again).1 h), hg.again]

theorem whenRunning (h : Repeatable f) : Repeatable fun s => whenRunning d s (f s) := by
  refine ite (fun same => by rw [same.cfg]) (ite (fun same => ?_) h (ended .errState)) (ended .errArg)
  rw [device_eq_of_dev same.dev]

theorem pre (h : Repeatable f) : Repeatable fun s => pre d k s (f s) :=
  whenRunning <| ite (fun same => by rw [ownsBank_eq_of_cfg same.cfg]) h (ended .errBank)

/-- An effect that leaves the inputs is repeatable when it is so from states with those inputs. -/
theorem of_inputs (inputs : ∀ s : State, s.SameInputs (f s))
    (again : ∀ s t : State, s.SameInputs t → t = (f s).again → f t = f s) : Repeatable f :=
  ⟨inputs, fun s => again s _ (inputs s).again rfl⟩

end Repeatable

/-- Run again on the state it left, the command leaves that state (R170(a)). -/
def RunsAgain (e : State → Result) : Prop := ∀ s t, e s = .next t → e t.again = .next t

theorem single_runsAgain {f : State → State} (h : Repeatable f) : RunsAgain fun s => single s (f s) := by
  intro s t step
  obtain ⟨_, rfl⟩ := single_eq_next.1 step
  exact (congrArg (single _) (h.again s)).trans (single_of_start _ rfl)

/-! ## The commands -/

open Repeatable (ended)

/-- Programming a bank after a command that programmed it, with results read from the bank. -/
theorem configure_again (s : State) (a k : Nat) (p m : Word) (md sc en : Bool) (c : StatusCode) (l : List Word)
    (results : Bank → List Word) :
    (((s.configure a k p m md sc en).finish c l).again.configure a k p m md sc en).finish .ok
      (results ((((s.configure a k p m md sc en).finish c l).again.configure a k p m md sc en).bank a k)) =
    (s.configure a k p m md sc en).finish .ok (results ((s.configure a k p m md sc en).bank a k)) := by
  have twice := congrArg (fun u : State => u.finish .ok (results (u.bank a k))) (configure_configure s a k p m md sc en)
  exact twice

/-- A toggle after a command that ended with a toggle of the same bank. -/
theorem setActive_again (s : State) (a k : Nat) (v w : Bool) :
    (((s.setActive a k v).finish .ok []).again.setActive a k w).finish .ok [] = (s.setActive a k w).finish .ok [] := by
  rw [← setActive_setActive s a k v w, setActive_eq_setFa, setActive_eq_setFa _ a k w]
  rfl

theorem programBank_repeatable {p m : State → Word} {md sc en : State → Bool}
    (operands : ∀ {s t : State}, s.SameInputs t →
      programBank d k (p t) (m t) (md t) (sc t) (en t) = programBank d k (p s) (m s) (md s) (sc s) (en s)) :
    Repeatable fun s => programBank d k (p s) (m s) (md s) (sc s) (en s) s := by
  refine .of_inputs (fun _ => ⟨rfl, rfl, rfl⟩) fun s t same e => ?_
  rw [operands same, programBank, programBank, farrayOf_eq_of_cfg same.cfg, e]
  exact configure_again s _ _ _ _ _ _ _ _ _ fun x => [x.fr1, x.fr2]

theorem fltConfigure_runsAgain : RunsAgain (exec (.fltConfigure d k)) :=
  single_runsAgain <| .pre <| .ite (fun same => by simp only [same.argWord]) (ended _) <|
    programBank_repeatable fun same => by simp only [same.argWord]

theorem fltMask32Std_runsAgain : RunsAgain (exec (.fltMask32Std d k)) :=
  single_runsAgain <| .pre <| .ite (fun same => by simp only [same.argWord])
    (programBank_repeatable fun same => by simp only [same.argWord]) (ended _)

theorem fltMask32Ext_runsAgain : RunsAgain (exec (.fltMask32Ext d k)) :=
  single_runsAgain <| .pre <| .ite (fun same => by simp only [same.argWord])
    (programBank_repeatable fun same => by simp only [same.argWord]) (ended _)

theorem fltMask16_runsAgain : RunsAgain (exec (.fltMask16 d k)) :=
  single_runsAgain <| .pre <| .ite (fun same => by simp only [same.argWord])
    (programBank_repeatable fun same => by simp only [same.argWord]) (ended _)

theorem fltList32Std_runsAgain : RunsAgain (exec (.fltList32Std d k)) :=
  single_runsAgain <| .pre <| .ite (fun same => by simp only [same.argWord])
    (.ite (fun same => by simp only [same.argWord]) (ended _) <|
      programBank_repeatable fun same => by simp only [same.argWord]) (ended _)

theorem fltList32Ext_runsAgain : RunsAgain (exec (.fltList32Ext d k)) :=
  single_runsAgain <| .pre <| .ite (fun same => by simp only [same.argWord])
    (.ite (fun same => by simp only [same.argWord]) (ended _) <|
      programBank_repeatable fun same => by simp only [same.argWord]) (ended _)

theorem fltList16_runsAgain : RunsAgain (exec (.fltList16 d k)) :=
  single_runsAgain <| .pre <| .ite (fun same => by simp only [same.argWord])
    (.ite (fun same => by simp only [same.argWord]) (ended _) <|
      programBank_repeatable fun same => by simp only [same.argWord]) (ended _)

theorem fltAcceptAll_runsAgain : RunsAgain (exec (.fltAcceptAll d)) := by
  refine single_runsAgain <| .whenRunning <| .ite (fun same => by simp only [same.argWord]) (ended _) <|
    .ite (fun same => by simp only [same.argWord, desc_eq_of_cfg same.cfg]) (ended _) <|
    .of_inputs (fun _ => ⟨rfl, rfl, rfl⟩) fun s t same e => ?_
  simp only [same.argWord, desc_eq_of_cfg same.cfg, farrayOf_eq_of_cfg same.cfg]
  rw [e]
  exact configure_again s _ _ _ _ _ _ _ _ _ fun x => [x.fr1, x.fr2, _]

/-- The bank is configured the second time exactly when it was the first. -/
theorem fltEnable_runsAgain : RunsAgain (exec (.fltEnable d k)) := by
  refine single_runsAgain <| .pre <| .of_inputs (fun s => ?_) fun s t same e => ?_
  · split <;> exact ⟨rfl, rfl, rfl⟩
  · rw [farrayOf_eq_of_cfg same.cfg]
    cases configured : (s.bank (s.farrayOf d) k).fcfg with
    | false =>
      rw [configured, if_neg Bool.false_ne_true] at e
      rw [e]
      exact if_neg (Bool.not_eq_true _ ▸ configured)
    | true =>
      rw [configured, if_pos rfl] at e
      have still := (bank_setActive_fcfg s (s.farrayOf d) k true).trans configured
      rw [e]
      exact (if_pos still).trans (setActive_again s _ k true true)

theorem fltDisable_runsAgain : RunsAgain (exec (.fltDisable d k)) := by
  refine single_runsAgain <| .pre <| .of_inputs (fun _ => ⟨rfl, rfl, rfl⟩) fun s t same e => ?_
  rw [farrayOf_eq_of_cfg same.cfg, e, setActive_again]

theorem fltClearAll_runsAgain : RunsAgain (exec (.fltClearAll d)) := by
  refine single_runsAgain <| .whenRunning <| .of_inputs (fun _ => ⟨rfl, rfl, rfl⟩) fun s t same e => ?_
  have twice := congrArg (State.finish · .ok []) (clearOwned_clearOwned s d)
  rw [e]
  exact twice

theorem fltRead_runsAgain : RunsAgain (exec (.fltRead d k)) :=
  single_runsAgain <| .pre ⟨fun _ => ⟨rfl, rfl, rfl⟩, fun _ => rfl⟩

/-- Every command of format CMD-B is a filter command (R71, R73). -/
theorem runsAgain_of_cmdB {i : Instr} (bankCommand : i.format = .cmdB) : RunsAgain (exec i) := by
  cases i with
  | fltConfigure d k => exact fltConfigure_runsAgain
  | fltMask32Std d k => exact fltMask32Std_runsAgain
  | fltMask32Ext d k => exact fltMask32Ext_runsAgain
  | fltList32Std d k => exact fltList32Std_runsAgain
  | fltList32Ext d k => exact fltList32Ext_runsAgain
  | fltMask16 d k => exact fltMask16_runsAgain
  | fltList16 d k => exact fltList16_runsAgain
  | fltEnable d k => exact fltEnable_runsAgain
  | fltDisable d k => exact fltDisable_runsAgain
  | fltRead d k => exact fltRead_runsAgain
  | _ => cases bankCommand

/-- `FLT_DISABLE` then `FLT_ENABLE` of an active, configured bank restore the state but for the outcome (R170(d)). -/
theorem exec_fltDisable_fltEnable (start : s.pos = .start) (ready : s.Ready d) (owned : s.ownsBank d k = true)
    (locked : (s.array (s.farrayOf d)).wp = true) (configured : (s.bank (s.farrayOf d) k).fcfg = true)
    (active : (s.bank (s.farrayOf d) k).fa = true) :
    ∃ t, exec (.fltDisable d k) s = .next t ∧ t.code = .ok ∧ exec (.fltEnable d k) t.again = .next (s.finish .ok []) := by
  have still := (bank_setActive_fcfg s (s.farrayOf d) k false).trans configured
  have restored := (setActive_again s (s.farrayOf d) k false true).trans
    (congrArg (State.finish · .ok []) (setActive_of_fa active locked))
  have cfg : ((s.setActive (s.farrayOf d) k false).finish .ok []).again.cfg = s.cfg := rfl
  have enabled := exec_fltEnable (s := ((s.setActive (s.farrayOf d) k false).finish .ok []).again) rfl ready owned still
  rw [farrayOf_eq_of_cfg cfg, restored] at enabled
  exact ⟨_, exec_fltDisable start ready owned, rfl, enabled⟩

end Machine

open Machine

/-- Settles O30: the effect of every filter command is repeatable (`Repeatable`), and of two toggles of a bank the last counts
(`exec_fltDisable_fltEnable`). -/
theorem filterRepeat : Obligations.FilterRepeat := by
  refine ⟨fun i s t _ _ command step => ?_, fun s d k fits locked start ready owned configured active => ?_⟩
  · rcases command with bankCommand | e | e
    · exact runsAgain_of_cmdB bankCommand s t step
    · rw [e] at step ⊢
      exact fltAcceptAll_runsAgain s t step
    · rw [e] at step ⊢
      exact fltClearAll_runsAgain s t step
  · obtain ⟨_, _, _, size, _⟩ := id fits
    have array : s.farrayOf d < s.cfg.numFarrays := size ▸ (fits.owned_inRange ready.1 owned).1
    obtain ⟨t, disabled, ok, enabled⟩ :=
      exec_fltDisable_fltEnable start ready owned (locked _ array) configured active
    exact ⟨t, _, disabled, enabled, ok, rfl, rfl⟩

end Sys2Proof
end

section
/-!
SUPPORT. Who writes the filter arrays (spec/43_filter.md R150, R153): every operation but the array's own leaves them, and so
every instruction but the programming commands, the toggles, the clear, `BEGIN` and `CLOSE`.
-/

namespace Sys2Proof
namespace Machine

variable {s t u : State} {i : Instr} {d k : Nat} {a : Agent} {ref : RingRef} {ring : RingSel}

/-! ## Checks and shared steps -/

@[simp] theorem onDevice_flt (h : u.flt = s.flt) : (onDevice d s u).flt = s.flt := by
  rw [onDevice, apply_ite State.flt, h, finish_flt, ite_self]

@[simp] theorem whenRunning_flt (h : u.flt = s.flt) : (whenRunning d s u).flt = s.flt := by
  rw [whenRunning, onDevice_flt]
  rw [apply_ite State.flt, h, finish_flt, ite_self]

@[simp] theorem pushCheckStep_flt {f : Frame} {p : Pos} : (pushCheckStep a ref f p s).flt = s.flt := by
  rw [pushCheckStep_eq, goto_flt]

@[simp] theorem pushFillStep_flt {h : Nat} {f : Frame} : (pushFillStep a ref h f s).flt = s.flt := by
  rcases pushFillStep_cases a ref h f s with ⟨r, _, e⟩ | e <;> simp [e]

@[simp] theorem pushPublishStep_flt {h : Nat} {p : Pos} : (pushPublishStep a ref h p s).flt = s.flt := by
  rw [pushPublishStep, goto_flt, setRing_flt]

@[simp] theorem peekCheckStep_flt {p : Pos} : (peekCheckStep a ref p s).flt = s.flt := by rw [peekCheckStep_eq, goto_flt]

@[simp] theorem peekReadStep_flt {n : Nat} {after : Frame → Pos} : (peekReadStep a ref n after s).flt = s.flt := by
  rcases peekReadStep_cases a ref n after s with ⟨w, _, e⟩ | ⟨f, e⟩ <;> simp [e]

@[simp] theorem popCheckStep_flt {x : Option Frame} {p : Pos} : (popCheckStep a ref x p s).flt = s.flt := by
  rw [popCheckStep_eq, goto_flt]

@[simp] theorem popAdvanceStep_flt {n : Nat} {p : Pos} : (popAdvanceStep a ref n p s).flt = s.flt := by
  rw [popAdvanceStep, goto_flt, setRing_flt]

@[simp] theorem finishRead_flt {x : Option Frame} : (finishRead d x s).flt = s.flt := by cases x <;> rfl

@[simp] theorem hwTransmit_flt (s : State) (b : Nat) (f : Frame) : (s.hwTransmit b f).2.flt = s.flt := by
  rcases hwTransmit_cases s b f with ⟨_, _, h⟩ | ⟨_, _, _, h⟩ | ⟨_, _, _, h⟩ | ⟨_, h⟩ <;> rw [h] <;> rfl

@[simp] theorem hwSetMode_flt (s : State) (b : Nat) (m : HwMode) : (s.hwSetMode b m).2.flt = s.flt := by
  cases h : drawnBool s.nextDraw
  · rw [hwSetMode_of_false b m h]
    rfl
  · rw [hwSetMode_of_true b m h]
    rfl

@[simp] theorem hwInit_flt (s : State) (b base remap : Nat) (w : Word) : (s.hwInit b base remap w).2.flt = s.flt := by
  cases h : drawnBool s.nextDraw
  · rw [hwInit_of_false b base remap w h]
    rfl
  · rw [hwInit_of_true b base remap w h]
    rfl

@[simp] theorem reprogram_flt (s : State) (timing baud : Word) : (s.reprogram d timing baud).flt = s.flt := by
  unfold State.reprogram
  have init := hwSetMode_flt s (s.blockOf d) .init
  split
  case h_1 e => exact (congrArg (·.2.flt) e).symm.trans init
  case h_2 u e =>
    rw [e] at init
    have normal := hwSetMode_flt u (s.blockOf d) .normal
    split
    case h_1 e' => exact ((congrArg (·.2.flt) e').symm.trans normal).trans init
    case h_2 e' => exact ((congrArg (·.2.flt) e').symm.trans normal).trans init

/-! ## Instructions that leave the arrays -/

theorem flt_of_single (e : single s u = .next t) (h : u.flt = s.flt) : t.flt = s.flt := (single_eq_next.1 e).2 ▸ h

theorem execRbIsEmpty_flt (e : execRbIsEmpty d ring s = .next t) : t.flt = s.flt := by
  unfold execRbIsEmpty at e
  split at e <;> cases e <;> simp

theorem execRbIsFull_flt (e : execRbIsFull d ring s = .next t) : t.flt = s.flt := by
  unfold execRbIsFull at e
  split at e <;> cases e <;> simp

theorem execRbCount_flt (e : execRbCount d ring s = .next t) : t.flt = s.flt := by
  unfold execRbCount at e
  split at e <;> cases e <;> simp

theorem execRbPush_flt (e : execRbPush d ring s = .next t) : t.flt = s.flt := by
  unfold execRbPush at e
  split at e <;> cases e <;> simp [apply_ite State.flt]

theorem execRbPeek_flt (e : execRbPeek d ring s = .next t) : t.flt = s.flt := by
  unfold execRbPeek at e
  split at e <;> cases e <;> simp [apply_ite State.flt]

theorem execRbPop_flt (e : execRbPop d ring s = .next t) : t.flt = s.flt := by
  unfold execRbPop at e
  split at e <;> cases e <;> simp [apply_ite State.flt]

theorem execBtSolve_flt (e : execBtSolve s = .next t) : t.flt = s.flt := by
  refine flt_of_single e ?_
  split <;> rfl

theorem execFltRead_flt (e : execFltRead d k s = .next t) : t.flt = s.flt :=
  flt_of_single e (whenRunning_flt (by rw [apply_ite State.flt, finish_flt, finish_flt, ite_self]))

theorem execDevOpen_flt (e : execDevOpen d s = .next t) : t.flt = s.flt :=
  flt_of_single e (onDevice_flt (by simp [apply_ite State.flt, State.claimDevice]))

theorem execSetBaudrate_flt (e : execSetBaudrate d s = .next t) : t.flt = s.flt := by
  refine flt_of_single e (whenRunning_flt ?_)
  split
  · rfl
  · exact reprogram_flt ..

theorem execWrite_flt (e : execWrite d s = .next t) : t.flt = s.flt := by
  have sent (f : Frame) := hwTransmit_flt s (s.blockOf d) f
  unfold execWrite at e
  split at e <;> cases e
  case h_3 f _ =>
    specialize sent f
    split <;> rename_i result <;> rw [result] at sent <;> exact (goto_flt ..).trans sent
  all_goals simp [apply_ite State.flt]

theorem execPeek_flt (e : execPeek d s = .next t) : t.flt = s.flt := by
  unfold execPeek at e
  split at e <;> cases e <;> simp

theorem execRead_flt (e : execRead d s = .next t) : t.flt = s.flt := by
  unfold execRead at e
  split at e <;> cases e <;> simp

theorem execIrqRx_flt (e : execIrqRx d s = .next t) : t.flt = s.flt := by
  unfold execIrqRx at e
  dsimp only at e
  split at e <;> cases e
  case h_3 => split <;> simp
  all_goals simp

theorem execIrqTx_flt (e : execIrqTx d s = .next t) : t.flt = s.flt := by
  have sent (f : Frame) := hwTransmit_flt s (s.blockOf d) f
  unfold execIrqTx at e
  dsimp only at e
  split at e <;> cases e
  case h_5 f _ =>
    specialize sent f
    split <;> rename_i result <;> rw [result] at sent <;> exact (goto_flt ..).trans sent
  all_goals simp [apply_ite State.flt]

/-! ## Every instruction -/

/-- The instructions that may write a bank: the filter commands but `FLT_READ`, and `BEGIN` and `CLOSE` (R150, R166). -/
def WritesBanks (i : Instr) : Prop :=
  (i.format = .cmdB ∧ ∀ d k, i ≠ .fltRead d k) ∨ i = .fltAcceptAll i.deviceOf ∨ i = .fltClearAll i.deviceOf ∨
  i = .devBegin i.deviceOf ∨ i = .devClose i.deviceOf

theorem exec_flt (e : exec i s = .next t) : t.flt = s.flt ∨ WritesBanks i := by
  cases i with
  | fltConfigure d k | fltMask32Std d k | fltMask32Ext d k | fltList32Std d k | fltList32Ext d k | fltMask16 d k
  | fltList16 d k | fltEnable d k | fltDisable d k => exact .inr (.inl ⟨rfl, nofun⟩)
  | fltAcceptAll d => exact .inr (.inr (.inl rfl))
  | fltClearAll d => exact .inr (.inr (.inr (.inl rfl)))
  | devBegin d => exact .inr (.inr (.inr (.inr (.inl rfl))))
  | devClose d => exact .inr (.inr (.inr (.inr (.inr rfl))))
  | rbIsEmpty d ring => exact .inl (execRbIsEmpty_flt e)
  | rbIsFull d ring => exact .inl (execRbIsFull_flt e)
  | rbCount d ring => exact .inl (execRbCount_flt e)
  | rbPush d ring => exact .inl (execRbPush_flt e)
  | rbPeek d ring => exact .inl (execRbPeek_flt e)
  | rbPop d ring => exact .inl (execRbPop_flt e)
  | btSolve => exact .inl (execBtSolve_flt e)
  | fltRead d k => exact .inl (execFltRead_flt e)
  | devOpen d => exact .inl (execDevOpen_flt e)
  | setBaudrate d => exact .inl (execSetBaudrate_flt e)
  | write d => exact .inl (execWrite_flt e)
  | availableForWrite d | available d | getError d => exact .inl (flt_of_single e (whenRunning_flt rfl))
  | peek d => exact .inl (execPeek_flt e)
  | read d => exact .inl (execRead_flt e)
  | irqRx d => exact .inl (execIrqRx_flt e)
  | irqTx d => exact .inl (execIrqTx_flt e)

/-- An instruction that may write a bank is a command of one step that names a device. -/
theorem WritesBanks.command (h : WritesBanks i) : i.format = .cmdD ∨ i.format = .cmdB := by
  rcases h with ⟨bankCommand, _⟩ | h | h | h | h
  · exact .inr bankCommand
  all_goals exact .inl (h ▸ rfl)

/-- Such an instruction steps from its first step only. -/
theorem start_of_writesBanks (h : WritesBanks i) (e : exec i s = .next t) : s.pos = .start := by
  rcases h with ⟨bankCommand, _⟩ | h | h | h | h
  · cases i with
    | fltConfigure d k | fltMask32Std d k | fltMask32Ext d k | fltList32Std d k | fltList32Ext d k | fltMask16 d k
    | fltList16 d k | fltEnable d k | fltDisable d k | fltRead d k => exact (single_eq_next.1 e).1
    | _ => cases bankCommand
  all_goals
    rw [h] at e
    exact (single_eq_next.1 e).1

/-- An instruction of an absent device leaves the arrays (R72). -/
theorem present_of_flt_ne (e : exec i s = .next t) (changed : t.flt ≠ s.flt) : s.cfg.hasDevice i.deviceOf = true := by
  have writes := (exec_flt e).resolve_left changed
  have names : i.format = .cmdD ∨ i.format = .cmdR ∨ i.format = .cmdB := writes.command.imp_right .inr
  refine Bool.not_eq_false _ ▸ fun absent => changed ?_
  cases ((exec_checksDevice (start_of_writesBanks writes e) names).absent absent).symm.trans e
  rfl

/-! ## What `BEGIN`, `CLOSE`, `FLT_CLEAR_ALL` and the toggles write -/

/-- The arrays stand, or they are those of a clear of the device's owned banks. -/
def State.ClearsAtMost (s t : State) (d : Nat) : Prop :=
  t.flt = s.flt ∨ ∃ u : State, u.cfg = s.cfg ∧ t.flt = (u.clearOwned d).flt

theorem State.ClearsAtMost.bank {n : Nat} (h : s.ClearsAtMost t d) (owned : s.ownsBank d k = true) (array : n = s.farrayOf d)
    (changed : t.bank n k ≠ s.bank n k) : t.bank n k = Bank.reset := by
  rcases h with same | ⟨u, cfg, cleared⟩
  · exact absurd (bank_eq_of_flt same _ _) changed
  · rw [bank_eq_of_flt cleared, array, ← farrayOf_eq_of_cfg cfg]
    exact bank_clearOwned_of_owned ((ownsBank_eq_of_cfg cfg d k).trans owned)

theorem onDevice_clears (h : s.ClearsAtMost t d) : s.ClearsAtMost (onDevice d s t) d := by
  unfold onDevice
  split
  · exact h
  · exact .inl rfl

theorem releaseDevice_clears (s : State) (d : Nat) : s.ClearsAtMost (s.releaseDevice d) d :=
  .inr ⟨_, rfl, (setDevice_flt ..).trans <| (setBlock_flt ..).trans <| (driveTrx_flt ..).trans <| (setDevice_flt ..).trans
    (hwDeinit_flt ..)⟩

theorem startDevice_flt (s : State) (d : Nat) (timing baud : Word) : ∃ u : State, u.cfg = s.cfg ∧
    (s.startDevice d timing baud).flt = (u.clearOwned d).flt :=
  ⟨_, rfl, (setDevice_flt ..).trans <| (driveTrx_flt ..).trans <| (setTxIe_flt ..).trans (setRxIe_flt ..)⟩

theorem execFltClearAll_clears (e : execFltClearAll d s = .next t) : s.ClearsAtMost t d := by
  obtain ⟨_, rfl⟩ := single_eq_next.1 e
  refine onDevice_clears ?_
  split
  · exact .inr ⟨s, rfl, rfl⟩
  · exact .inl rfl

theorem execDevClose_clears (e : execDevClose d s = .next t) : s.ClearsAtMost t d := by
  obtain ⟨_, rfl⟩ := single_eq_next.1 e
  refine onDevice_clears ?_
  split
  · exact .inl rfl
  · exact releaseDevice_clears s d

theorem execDevBegin_clears (e : execDevBegin d s = .next t) : s.ClearsAtMost t d := by
  obtain ⟨_, rfl⟩ := single_eq_next.1 e
  refine onDevice_clears ?_
  rw [beginSetup_eq]
  split
  · exact .inl rfl
  · dsimp only
    split
    · exact .inl rfl
    · rename_i r _
      have arrays := hwInit_flt s (s.blockOf d) (s.desc d).base (s.desc d).remap r.timing
      have config := hwInit_cfg s (s.blockOf d) (s.desc d).base (s.desc d).remap r.timing
      split <;> rename_i init <;> rw [init] at arrays config
      · exact .inl arrays
      · obtain ⟨u, cfg, cleared⟩ := startDevice_flt _ d r.timing (s.argWord 0)
        exact .inr ⟨u, cfg.trans config, cleared⟩

/-- The banks differ in `FA` at most. -/
def Bank.SameButFa (x y : Bank) : Prop := { x with fa := y.fa } = y

/-- A filter command whose effect is a toggle of the bank, at most, is one. -/
theorem sameButFa_of_pre {n : Nat} (e : single s (pre d k s u) = .next t) (effect : (u.bank n k).SameButFa (s.bank n k)) :
    (t.bank n k).SameButFa (s.bank n k) := by
  obtain ⟨_, rfl⟩ := single_eq_next.1 e
  rcases pre_cases d k s u with ⟨_, _, _, h⟩ | ⟨c, _, h⟩ <;> rw [h]
  · exact effect
  · rfl

/-- A toggle writes no register of its bank but `FA` (R162, R163). -/
theorem bank_of_toggle (toggle : i = .fltEnable i.deviceOf k ∨ i = .fltDisable i.deviceOf k) (e : exec i s = .next t) :
    (t.bank (s.farrayOf i.deviceOf) k).SameButFa (s.bank (s.farrayOf i.deviceOf) k) := by
  have toggled (v : Bool) := bank_setActive_fa s (s.farrayOf i.deviceOf) k v (s.bank (s.farrayOf i.deviceOf) k).fa
  rcases toggle with h | h <;> rw [h] at e
  · refine sameButFa_of_pre e ?_
    split
    · exact toggled true
    · rfl
  · exact sameButFa_of_pre e (toggled false)

/-! ## Whole steps -/

theorem hostStep_flt (e : hostStep s = .next t) : t.flt = s.flt := by
  unfold hostStep at e
  split at e
  · cases e
    rfl
  · rename_i access rest _
    rcases portAccess_cases access { s with host := rest } with h | h | ⟨u, _, stored, h⟩ | ⟨v, _, _, h⟩ <;>
      cases h.symm.trans e
    · exact raise_flt ..
    · rcases portWrite_cases { s with host := rest } (access.addr - s.cfg.canqBase) access.value with
        w | ⟨_, _, w⟩ | ⟨_, _, _, w⟩ <;> cases w.symm.trans stored <;> rfl
    · rfl
  · cases e
    rfl

theorem busComplete_flt (b : Nat) (s : State) : (busComplete b s).flt = s.flt := by
  unfold busComplete
  split <;> rfl

theorem deliver_flt (s : State) (b : Nat) (f : Frame) : (s.deliver b f).flt = s.flt := by
  unfold State.deliver
  split
  · rfl
  · dsimp only
    split <;> rfl

theorem busArrive_flt (b : Nat) (s : State) : (busArrive b s).flt = s.flt := by
  unfold busArrive
  split
  · dsimp only
    split
    · exact deliver_flt ..
    · rfl
  · rfl

/-- A step leaves the arrays, or it is a step of an instruction (R60). -/
theorem step_flt (step : step s = .next t) : t.flt = s.flt ∨ ∃ i, s.Runs i ∧ exec i s.afterChoice = .next t := by
  rcases step_cases s with ⟨_, h⟩ | ⟨_, _, h⟩ | ⟨_, _, h⟩ <;> rw [h] at step
  · cases step
  · cases chosen : s.choose with
    | app =>
      rw [chosen] at step
      cases busy : s.afterChoice.busy with
      | false => exact .inl ((hostStep_flt (by simpa [runEvent, busy] using step)).trans (afterChoice_flt s))
      | true =>
        have cur : s.cur ≠ none := by simpa [State.busy, Option.isSome_iff_ne_none] using busy
        simp only [runEvent, busy, if_true, commandStep, afterChoice_cmd] at step
        split at step
        · exact .inr ⟨_, .inl ⟨chosen, cur, ‹_›⟩, step⟩
        · cases step
          exact .inl (afterChoice_flt s)
    | port => exact .inl ((hostStep_flt (by rwa [chosen] at step)).trans (afterChoice_flt s))
    | enter g => exact .inr ⟨_, .inr ⟨g, .inl chosen, rfl⟩, by rwa [chosen] at step⟩
    | resume g => exact .inr ⟨_, .inr ⟨g, .inr chosen, rfl⟩, by rwa [chosen] at step⟩
    | complete b =>
      rw [chosen] at step
      cases step
      exact .inl ((busComplete_flt b _).trans (afterChoice_flt s))
    | arrive b =>
      rw [chosen] at step
      cases step
      exact .inl ((busArrive_flt b _).trans (afterChoice_flt s))
  · cases step
    exact .inl (afterChoice_flt s)

end Machine

open Machine

/-- Settles O49: only an instruction of `WritesBanks` writes an array (`step_flt`, `exec_flt`), and of the banks only its
device's (`exec_changesOnly`); a clear and a toggle write no more than `State.ClearsAtMost` and `bank_of_toggle` say. -/
theorem bankWriters : Obligations.BankWriters := by
  intro s t a k step changed
  obtain ⟨i, runs, e⟩ := (step_flt step).resolve_left fun same => changed (bank_eq_of_flt same a k)
  have before (n j : Nat) : s.afterChoice.bank n j = s.bank n j := bank_eq_of_flt (afterChoice_flt s) n j
  rw [← before] at changed ⊢
  have arrays : t.flt ≠ s.afterChoice.flt := fun same => changed (bank_eq_of_flt same a k)
  have writes := (exec_flt e).resolve_left arrays
  have owner : ¬ (a ≠ s.afterChoice.farrayOf i.deviceOf ∨ s.afterChoice.ownsBank i.deviceOf k = false) :=
    fun other => changed ((exec_changesOnly e).bank a k other)
  rw [not_or, not_not, Bool.not_eq_false] at owner
  obtain ⟨array, owned⟩ := owner
  have command : i.format ≠ .irq := by rcases writes.command with f | f <;> simp [f]
  obtain ⟨chosen, cur, word⟩ := runs.command command
  have cfg := afterChoice_cfg s
  refine ⟨chosen, cur, i, word, cfg ▸ present_of_flt_ne e arrays, (farrayOf_eq_of_cfg cfg _).symm.trans array.symm,
    (ownsBank_eq_of_cfg cfg _ k).symm.trans owned, writes, fun clears => ?_, fun toggle => ?_⟩
  · refine State.ClearsAtMost.bank ?_ owned array changed
    rcases clears with h | h | h <;> rw [h] at e
    · exact execFltClearAll_clears e
    · exact execDevBegin_clears e
    · exact execDevClose_clears e
  · subst array
    exact bank_of_toggle toggle e

end Sys2Proof
end

section
/-!
SUPPORT. The lifecycle commands (spec/44_controller.md R192 to R195): the state `OPEN`, `BEGIN` and `CLOSE` leave, as one
equation each, and what each command answers.
-/

namespace Sys2Proof
namespace Machine

variable {s t : State} {d : Nat} {timing baud : Word} {r : Solution}

/-! ## Sequences of writes -/

/-- The level is written the same whatever the other tables hold. -/
theorem driveTrx_pins_congr (cfg : t.cfg = s.cfg) (pins : t.pins = s.pins) (d : Nat) (v : Bool) :
    (t.driveTrx d v).pins = (s.driveTrx d v).pins := by
  unfold State.driveTrx
  rw [desc_eq_of_cfg cfg]
  split
  · exact pins
  · exact congrArg (Table.write · _ v) pins

theorem pinDriven_of_pins {v : Bool} (cfg : t.cfg = s.cfg) (pins : t.pins = (s.driveTrx d v).pins) : s.PinDriven t d v := by
  obtain ⟨levels, views⟩ := driveTrx_pinDriven s d v
  have level (p : Nat) : t.pinLevel p = (s.driveTrx d v).pinLevel p := by rw [State.pinLevel, State.pinLevel, pins]
  refine ⟨fun p => (level p).trans (levels p), fun e => ?_⟩
  rw [← views e, State.trx, State.trx, desc_eq_of_cfg cfg, desc_eq_of_cfg (driveTrx_cfg s d v)]
  simp only [level]

theorem clearOwned_flt_congr (cfg : t.cfg = s.cfg) (flt : t.flt = s.flt) (d : Nat) :
    (t.clearOwned d).flt = (s.clearOwned d).flt := by
  simp only [clearOwned_eq, State.setArray, flt, farrayOf_eq_of_cfg cfg, desc_eq_of_cfg cfg, array_eq_of_flt flt]

theorem ownedCleared_of_flt (flt : t.flt = (s.clearOwned d).flt) : s.OwnedCleared t d := by
  obtain ⟨banks, locked, others⟩ := ownedCleared_clearOwned s d
  simp only [← bank_eq_of_flt flt, ← array_eq_of_flt flt] at banks locked others
  exact ⟨banks, locked, others⟩

/-! ## `BEGIN` and `CLOSE`, table by table -/

theorem startDevice_cfg : (s.startDevice d timing baud).cfg = s.cfg := by simp [State.startDevice]

theorem releaseDevice_cfg : (s.releaseDevice d).cfg = s.cfg := by simp [State.releaseDevice]

theorem startDevice_dev (present : d < s.dev.length) : (s.startDevice d timing baud).dev =
    s.dev.set d { s.device d with st := .running, rxIe := true, txIe := false, timing, baud, baudValid := true } := by
  simp [State.startDevice, State.setRxIe, State.setTxIe, State.setDevice, State.device, present]

theorem startDevice_pins : (s.startDevice d timing baud).pins = (s.driveTrx d (s.desc d).trxAwake).pins := by
  rw [State.startDevice, setDevice_pins]
  exact driveTrx_pins_congr (by simp) (by simp) d _

theorem startDevice_frame :
    { s.startDevice d timing baud with dev := s.dev, flt := s.flt, pins := s.pins } = s := by
  simp [State.startDevice]

theorem startDevice_flt_eq : (s.startDevice d timing baud).flt = (s.clearOwned d).flt := by
  simp only [State.startDevice, setDevice_flt, driveTrx_flt, setTxIe_flt, setRxIe_flt]
  rfl

theorem releaseDevice_dev (present : d < s.dev.length) : (s.releaseDevice d).dev = s.dev.set d DevState.reset := by
  simp [State.releaseDevice, State.setRxIe, State.setTxIe, State.setDevice, State.device, present, DevState.reset]

theorem releaseDevice_blk (inRange : s.blockOf d < s.blk.length) : (s.releaseDevice d).blk =
    s.blk.set (s.blockOf d) { BlockState.reset with owner := (s.block (s.blockOf d)).owner } := by
  simp [State.releaseDevice, State.hwDeinit, State.setBlock, State.block, inRange, BlockState.reset]

theorem releaseDevice_pins : (s.releaseDevice d).pins = (s.driveTrx d (!(s.desc d).trxAwake)).pins := by
  rw [State.releaseDevice, setDevice_pins, setBlock_pins]
  exact driveTrx_pins_congr (by simp) (by simp) d _

theorem releaseDevice_frame :
    { s.releaseDevice d with dev := s.dev, blk := s.blk, flt := s.flt, pins := s.pins } = s := by
  simp [State.releaseDevice]

theorem releaseDevice_flt_eq : (s.releaseDevice d).flt = (s.clearOwned d).flt := by
  simp only [State.releaseDevice, setDevice_flt, setBlock_flt, driveTrx_flt, hwDeinit_flt]
  rfl

/-! ## What each command answers -/

section Answers

variable (start : s.pos = .start)

include start

theorem exec_devOpen_cap (present : s.cfg.hasDevice d = true)
    (bad : ¬ ((s.arg.get 0).toNat ∈ Config.capSetRx ∧ (s.arg.get 1).toNat ∈ Config.capSetTx)) :
    exec (.devOpen d) s = .next (s.finish .errCap []) := by
  rw [exec, execDevOpen, single_of_start _ start, onDevice_of _ present]
  exact congrArg _ (if_pos bad)

theorem exec_devOpen (present : s.cfg.hasDevice d = true) (rxCap : (s.arg.get 0).toNat ∈ Config.capSetRx)
    (txCap : (s.arg.get 1).toNat ∈ Config.capSetTx) (free : (s.block (s.blockOf d)).claim = false) :
    exec (.devOpen d) s = .next ((s.claimDevice d (s.arg.get 0).toNat (s.arg.get 1).toNat).finish .ok []) := by
  rw [exec, execDevOpen, single_of_start _ start, onDevice_of _ present]
  exact congrArg _ ((if_neg (not_not.2 ⟨rxCap, txCap⟩)).trans (if_neg (by simp [free])))

/-- `BEGIN` of a CONFIGURED device: the solver, then the drawn answer of `hw_init`. -/
theorem exec_devBegin (present : s.cfg.hasDevice d = true) (configured : (s.device d).st = .configured) :
    exec (.devBegin d) s = .next (match solve (s.arg.get 0).toNat (s.desc d).pclk with
      | none => s.finish .errBaud []
      | some r =>
        match s.hwInit (s.blockOf d) (s.desc d).base (s.desc d).remap r.timing with
        | (false, v) => v.finish .errHw []
        | (true, v) => (v.startDevice d r.timing (s.arg.get 0)).finish .ok [r.timing]) := by
  rw [exec, execDevBegin, single_of_start _ start, onDevice_of _ present, if_neg (not_not.2 configured), beginSetup_eq]
  rfl

theorem exec_setBaudrate (ready : s.Ready d) :
    exec (.setBaudrate d) s = .next (match solve (s.arg.get 0).toNat (s.desc d).pclk with
      | none => s.finish .errBaud []
      | some r => s.reprogram d r.timing (s.arg.get 0)) :=
  single_whenRunning_of start ready _

theorem exec_devClose (present : s.cfg.hasDevice d = true) (opened : (s.device d).st ≠ .uninit) :
    exec (.devClose d) s = .next ((s.releaseDevice d).finish .ok []) := by
  rw [exec, execDevClose, single_of_start _ start, onDevice_of _ present, if_neg opened]

end Answers

/-! ## A change of the controller (R194, R250) -/

/-- `t` is `s` with `x` in the entry of block `b`, after some draws. -/
structure State.BlockSet (s t : State) (b : Nat) (x : BlockState) : Prop where
  blk : t.blk = s.blk.set b x
  frame : { t with blk := s.blk, tape := s.tape, drawn := s.drawn } = s

namespace State.BlockSet

variable {u : State} {b : Nat} {x y : BlockState}

theorem cfg (h : s.BlockSet t b x) : t.cfg = s.cfg := by simpa using congrArg State.cfg h.frame

theorem dev (h : s.BlockSet t b x) : t.dev = s.dev := by simpa using congrArg State.dev h.frame

theorem flt (h : s.BlockSet t b x) : t.flt = s.flt := by simpa using congrArg State.flt h.frame

theorem pins (h : s.BlockSet t b x) : t.pins = s.pins := by simpa using congrArg State.pins h.frame

theorem device (h : s.BlockSet t b x) : t.device d = s.device d := device_eq_of_dev h.dev d

theorem block (h : s.BlockSet t b x) (inRange : b < s.blk.length) : t.block b = x := by simp [State.block, h.blk, inRange]

theorem setDevice_dev (h : s.BlockSet t b x) (y : DevState) : (t.setDevice d y).dev = s.dev.set d y :=
  congrArg (List.set · d y) h.dev

theorem trans (h : s.BlockSet t b x) (g : t.BlockSet u b y) : s.BlockSet u b y := by
  refine ⟨by rw [g.blk, h.blk, List.set_set], ?_⟩
  have frame := congrArg (fun v : State => { v with blk := s.blk, tape := s.tape, drawn := s.drawn }) g.frame
  exact frame.trans h.frame

/-- A device written and a command ended besides, all else stands. -/
theorem frame_outcome (h : s.BlockSet t b x) : { t with
    dev := s.dev, blk := s.blk, code := s.code, res := s.res, cur := s.cur, tape := s.tape, drawn := s.drawn } = s :=
  congrArg (fun u : State => { u with dev := s.dev, code := s.code, res := s.res, cur := s.cur }) h.frame

end State.BlockSet

theorem drawnMode_cases (w : Word) : drawnMode w = .init ∨ drawnMode w = .normal := by
  unfold drawnMode
  split
  · exact .inr rfl
  · exact .inl rfl

section Draws

variable {b : Nat} {m : HwMode}

theorem hwSetMode_succeeds (drawn : drawnBool s.nextDraw = true) : ∃ v, s.hwSetMode b m = (true, v) ∧
    s.BlockSet v b { s.block b with hwMode := m } ∧ v.nextDraw = s.afterDraw.nextDraw :=
  ⟨_, hwSetMode_of_true b m drawn, ⟨rfl, rfl⟩, rfl⟩

theorem hwSetMode_fails (drawn : drawnBool s.nextDraw = false) : ∃ v, s.hwSetMode b m = (false, v) ∧
    ∃ n, (n = .init ∨ n = .normal) ∧ s.BlockSet v b { s.block b with hwMode := n } :=
  ⟨_, hwSetMode_of_false b m drawn, _, drawnMode_cases _, rfl, rfl⟩

theorem hwInit_succeeds {base remap : Nat} (drawn : drawnBool s.nextDraw = true) : ∃ v,
    s.hwInit b base remap timing = (true, v) ∧
    s.BlockSet v b { s.block b with hwMode := .normal, mbox := [], rxfifo := [] } ∧ v.tape = s.tape.tail ∧ v.drawn = s.drawn + 1 :=
  ⟨_, hwInit_of_true b base remap timing drawn, ⟨rfl, rfl⟩, rfl, rfl⟩

theorem hwInit_fails {base remap : Nat} (drawn : drawnBool s.nextDraw = false) : ∃ v,
    s.hwInit b base remap timing = (false, v) ∧ s.BlockSet v b { s.block b with hwMode := .reset } ∧
    v.tape = s.tape.tail ∧ v.drawn = s.drawn + 1 :=
  ⟨_, hwInit_of_false b base remap timing drawn, ⟨rfl, rfl⟩, rfl, rfl⟩

end Draws

/-- A failed mode change leaves the device with whatever timing the draws give, not valid (R194, R290). -/
theorem loseTiming_eq {b : Nat} {x : BlockState} (set : s.BlockSet t b x) : ∃ u, s.BlockSet u b x ∧ ∃ timing baud,
    t.loseTiming d = u.setDevice d { s.device d with timing := timing, baud := baud, baudValid := false } := by
  refine ⟨t.afterDraw.afterDraw, ⟨set.blk, set.frame⟩, t.nextDraw, t.afterDraw.nextDraw, ?_⟩
  rw [← set.device]
  rfl

/-- Both mode changes succeed and the timing is recorded, or one fails and the timing is lost. -/
theorem reprogram_cases (timing baud : Word) (inRange : s.blockOf d < s.blk.length) :
    ((drawnBool s.nextDraw = true ∧ drawnBool s.afterDraw.nextDraw = true) ∧
      ∃ v, s.BlockSet v (s.blockOf d) { s.block (s.blockOf d) with hwMode := .normal } ∧ s.reprogram d timing baud =
        (v.setDevice d { s.device d with timing := timing, baud := baud, baudValid := true }).finish .ok [timing]) ∨
    (¬ (drawnBool s.nextDraw = true ∧ drawnBool s.afterDraw.nextDraw = true) ∧ ∃ v m, (m = .init ∨ m = .normal) ∧
      s.BlockSet v (s.blockOf d) { s.block (s.blockOf d) with hwMode := m } ∧ ∃ lost lost', s.reprogram d timing baud =
        (v.setDevice d { s.device d with timing := lost, baud := lost', baudValid := false }).finish .errHw []) := by
  cases first : drawnBool s.nextDraw
  · obtain ⟨u, failed, m, mode, set⟩ := hwSetMode_fails (b := s.blockOf d) (m := .init) first
    obtain ⟨v, set', lost, lost', e⟩ := loseTiming_eq (d := d) set
    exact .inr ⟨by simp, v, m, mode, set', lost, lost', by simp only [State.reprogram, failed, e]⟩
  · obtain ⟨u, done, init, draw⟩ := hwSetMode_succeeds (b := s.blockOf d) (m := .init) first
    cases second : drawnBool s.afterDraw.nextDraw <;> rw [← draw] at second
    · obtain ⟨w, failed, m, mode, set⟩ := hwSetMode_fails (b := s.blockOf d) (m := .normal) second
      rw [init.block inRange] at set
      obtain ⟨v, set', lost, lost', e⟩ := loseTiming_eq (d := d) (init.trans set)
      refine .inr ⟨by simp, v, m, mode, set', lost, lost', ?_⟩
      simp only [State.reprogram, done, State.envSetTiming, failed, e]
    · obtain ⟨v, done', set, _⟩ := hwSetMode_succeeds (b := s.blockOf d) (m := .normal) second
      rw [init.block inRange] at set
      refine .inl ⟨⟨rfl, rfl⟩, v, init.trans set, ?_⟩
      simp only [State.reprogram, done, State.envSetTiming, done', (init.trans set).device]

/-! ## What the statements ask of the tables -/

/-- `u` with all that `BEGIN` may write taken back from `s`. -/
def restoreTables (s u : State) : State := { u with
  dev := s.dev, blk := s.blk, flt := s.flt, pins := s.pins, code := s.code, res := s.res, cur := s.cur, tape := s.tape
  drawn := s.drawn }

/-- A device of the configuration and its block stand in the tables. -/
theorem State.Fits.device_inRange (fits : s.Fits) (present : s.cfg.hasDevice d = true) :
    d < s.dev.length ∧ s.blockOf d < s.blk.length := by
  obtain ⟨admitted, dev, blk, _⟩ := fits
  obtain ⟨ranges, _, _⟩ := s.cfg.admitted_iff.1 admitted
  obtain ⟨_, _, _, _, _, _, _, _, _, _, _, _, _, descs⟩ := s.cfg.inRange_iff.1 ranges
  have lt := Config.lt_of_hasDevice present
  exact ⟨dev ▸ lt, blk ▸ (descs d lt).1⟩

theorem device_of_dev_set {x : DevState} (dev : t.dev = s.dev.set d x) (present : d < s.dev.length) : t.device d = x :=
  (device_eq_of_dev (t := t) (s := s.setDevice d x) dev d).trans (device_setDevice_self s x present)

theorem otherDevices_of_dev_set {x : DevState} (dev : t.dev = s.dev.set d x) : s.OtherDevices t d := fun e other =>
  (device_eq_of_dev (t := t) (s := s.setDevice d x) dev e).trans (device_setDevice_ne s x (Ne.symm other))

theorem block_of_blk_set {b : Nat} {x : BlockState} (blk : t.blk = s.blk.set b x) (inRange : b < s.blk.length) :
    t.block b = x :=
  (block_eq_of_blk (t := t) (s := s.setBlock b x) blk b).trans (block_setBlock_self s x inRange)

theorem otherBlocks_of_blk_set {b : Nat} {x : BlockState} (blk : t.blk = s.blk.set b x) : s.OtherBlocks t b := fun c other =>
  (block_eq_of_blk (t := t) (s := s.setBlock b x) blk c).trans (block_setBlock_ne s x (Ne.symm other))

end Machine

open Machine

/-- Settles O32: the two checks in their order, and the claim, which writes one registry entry and one device. -/
theorem openDevice : Obligations.OpenDevice := by
  intro d s fits start present
  obtain ⟨device, block⟩ := fits.device_inRange present
  refine ⟨exec_devOpen_cap start present, fun rxCap txCap => ⟨fun claimed => ?_, fun free => ?_⟩⟩
  · exact execDevOpen_claimed start present claimed rxCap txCap
  · exact ⟨_, exec_devOpen start present rxCap txCap free, rfl, rfl, rfl, device_of_dev_set rfl device,
      block_of_blk_set rfl block, otherDevices_of_dev_set (s := s) rfl, otherBlocks_of_blk_set rfl, rfl⟩

/-- Settles O33: the drawn answer of `hw_init` sets the block, and where it is true `startDevice` writes the device, its banks
and its pin. -/
theorem beginDevice : Obligations.BeginDevice := by
  intro d s fits start present configured
  obtain ⟨device, block⟩ := fits.device_inRange present
  rw [exec_devBegin start present configured]
  refine ⟨fun failed => by rw [failed], fun r solved => ?_⟩
  rw [solved]
  cases drawn : drawnBool s.nextDraw
  · obtain ⟨v, init, set, tape, count⟩ := hwInit_fails (b := s.blockOf d) (timing := r.timing) (base := (s.desc d).base)
      (remap := (s.desc d).remap) drawn
    simp only [init]
    refine ⟨_, rfl, rfl, tape, count, fun e _ => set.device, otherBlocks_of_blk_set set.blk, ?_, rfl, rfl, set.flt, set.dev,
      set.pins, set.block block⟩
    exact congrArg (fun u : State => { u with
      dev := s.dev, flt := s.flt, pins := s.pins, code := s.code, res := s.res, cur := s.cur }) set.frame
  · obtain ⟨v, init, set, tape, count⟩ := hwInit_succeeds (b := s.blockOf d) (timing := r.timing) (base := (s.desc d).base)
      (remap := (s.desc d).remap) drawn
    simp only [init]
    have dev := startDevice_dev (s := v) (timing := r.timing) (baud := s.arg.get 0) (set.dev ▸ device)
    rw [set.dev, set.device] at dev
    have kept := startDevice_frame (s := v) (d := d) (timing := r.timing) (baud := s.arg.get 0)
    have blk := (congrArg State.blk kept).trans set.blk
    refine ⟨_, rfl, rfl, (congrArg State.tape kept).trans tape, (congrArg State.drawn kept).trans count,
      otherDevices_of_dev_set dev, otherBlocks_of_blk_set blk, ?frame, rfl, rfl, ?banks, ?pin, device_of_dev_set dev device,
      block_of_blk_set blk block⟩
    case frame =>
      have started := congrArg (restoreTables s) kept
      have initialised := congrArg (restoreTables s) set.frame
      exact started.trans initialised
    case banks =>
      exact ownedCleared_of_flt (startDevice_flt_eq.trans (clearOwned_flt_congr set.cfg set.flt d))
    case pin =>
      refine pinDriven_of_pins (startDevice_cfg.trans set.cfg) ?_
      rw [← desc_eq_of_cfg set.cfg]
      exact startDevice_pins.trans (driveTrx_pins_congr set.cfg set.pins d _)

/-- Settles O34: by the two drawn answers (`reprogram_cases`). -/
theorem setBaudrate : Obligations.SetBaudrate := by
  refine fun d => ⟨startsOnRunning_of_single fun _ => rfl, fun s fits start ready => ?_⟩
  obtain ⟨device, block⟩ := fits.device_inRange ready.1
  rw [exec_setBaudrate start ready]
  refine ⟨fun failed => by rw [failed], fun r solved => ?_⟩
  simp only [solved]
  rcases reprogram_cases r.timing (s.arg.get 0) block with
    ⟨drawn, v, set, e⟩ | ⟨drawn, v, m, mode, set, lost, lost', e⟩
  · simp only [e, if_pos drawn]
    exact ⟨_, rfl, rfl, otherDevices_of_dev_set (set.setDevice_dev _), otherBlocks_of_blk_set set.blk,
      set.frame_outcome, rfl, rfl, device_of_dev_set (set.setDevice_dev _) device, set.block block⟩
  · simp only [e, if_neg drawn]
    refine ⟨_, rfl, rfl, otherDevices_of_dev_set (set.setDevice_dev _), otherBlocks_of_blk_set set.blk,
      set.frame_outcome, rfl, rfl, ?_⟩
    rw [device_eq_of_dev (finish_dev ..), block_eq_of_blk (finish_blk ..), block_eq_of_blk (setDevice_blk ..),
      device_of_dev_set (set.setDevice_dev _) device, set.block block]
    exact ⟨rfl, rfl, mode, rfl⟩

/-- Settles O35: every table `releaseDevice` leaves is one entry of the old table rewritten, and its banks are cleared. -/
theorem closeDevice : Obligations.CloseDevice := by
  intro d s fits start present opened
  obtain ⟨device, block⟩ := fits.device_inRange present
  refine ⟨_, exec_devClose start present opened, rfl, rfl, rfl, device_of_dev_set (releaseDevice_dev device) device,
    block_of_blk_set (releaseDevice_blk block) block, ?_, ownedCleared_of_flt releaseDevice_flt_eq,
    otherDevices_of_dev_set (releaseDevice_dev device), otherBlocks_of_blk_set (releaseDevice_blk block), ?_⟩
  · exact pinDriven_of_pins releaseDevice_cfg releaseDevice_pins
  · exact congrArg (fun u : State => { u with code := s.code, res := s.res, cur := s.cur }) releaseDevice_frame

end Sys2Proof
end

section
/-!
SUPPORT. The registry (spec/44_controller.md R190): what `OPEN`, `BEGIN` and `CLOSE` can do, outcome by outcome, and that a claim
and a release each keep a device out of UNINIT exactly where its block names it as owner.
-/

namespace Sys2Proof
namespace Machine

variable {s t : State} {d : Nat}

/-! ## The lifecycle commands, outcome by outcome -/

theorem exec_devOpen_cases (e : exec (.devOpen d) s = .next t) : (∃ c, t = s.finish c []) ∨
    (s.cfg.hasDevice d = true ∧ (s.argWord 0).toNat ∈ Config.capSetRx ∧ (s.argWord 1).toNat ∈ Config.capSetTx ∧
      (s.block (s.blockOf d)).claim = false ∧
      t = (s.claimDevice d (s.argWord 0).toNat (s.argWord 1).toNat).finish .ok []) := by
  obtain ⟨_, rfl⟩ := single_eq_next.1 e
  unfold onDevice
  split
  · split
    · exact .inl ⟨_, rfl⟩
    · rename_i present legal
      obtain ⟨rxCap, txCap⟩ := not_not.1 legal
      split
      · exact .inl ⟨_, rfl⟩
      · rename_i free
        exact .inr ⟨present, rxCap, txCap, by simpa using free, rfl⟩
  · exact .inl ⟨_, rfl⟩

theorem exec_devClose_cases (e : exec (.devClose d) s = .next t) : (∃ c, t = s.finish c []) ∨
    (s.cfg.hasDevice d = true ∧ (s.device d).st ≠ .uninit ∧ t = (s.releaseDevice d).finish .ok []) := by
  obtain ⟨_, rfl⟩ := single_eq_next.1 e
  unfold onDevice
  split
  · split
    · exact .inl ⟨_, rfl⟩
    · exact .inr ⟨‹_›, ‹_›, rfl⟩
  · exact .inl ⟨_, rfl⟩

theorem exec_devBegin_cases (e : exec (.devBegin d) s = .next t) : (∃ c, t = s.finish c []) ∨
    (s.cfg.hasDevice d = true ∧ (s.device d).st = .configured ∧
      ((∃ v, s.BlockSet v (s.blockOf d) { s.block (s.blockOf d) with hwMode := .reset } ∧ t = v.finish .errHw []) ∨
       ∃ v timing, s.BlockSet v (s.blockOf d) { s.block (s.blockOf d) with hwMode := .normal, mbox := [], rxfifo := [] } ∧
        t = (v.startDevice d timing (s.argWord 0)).finish .ok [timing])) := by
  have start : s.pos = .start := (single_eq_next.1 e).1
  cases present : s.cfg.hasDevice d
  · exact .inl ⟨_, Host.Outcome.next.inj (e.symm.trans ((single_checksDevice start _).absent present))⟩
  by_cases configured : (s.device d).st = .configured
  · rw [exec_devBegin start present configured] at e
    split at e
    · exact .inl ⟨_, (Host.Outcome.next.inj e).symm⟩
    · refine .inr ⟨rfl, configured, ?_⟩
      rename_i r _
      cases drawn : drawnBool s.nextDraw
      · obtain ⟨v, init, set, _⟩ := hwInit_fails (b := s.blockOf d) (timing := r.timing) (base := (s.desc d).base)
          (remap := (s.desc d).remap) drawn
        simp only [init] at e
        exact .inl ⟨v, set, (Host.Outcome.next.inj e).symm⟩
      · obtain ⟨v, init, set, _⟩ := hwInit_succeeds (b := s.blockOf d) (timing := r.timing) (base := (s.desc d).base)
          (remap := (s.desc d).remap) drawn
        simp only [init] at e
        exact .inr ⟨v, r.timing, set, (Host.Outcome.next.inj e).symm⟩
  · exact .inl ⟨_, Host.Outcome.next.inj (e.symm.trans (execDevBegin_not_configured start present configured))⟩

/-! ## The registry invariant -/

/-- The invariant reads which devices are UNINIT and the registry, nothing else. -/
theorem State.RegistryOk.congr (h : s.RegistryOk) (cfg : t.cfg = s.cfg)
    (life : ∀ d, (t.device d).st = .uninit ↔ (s.device d).st = .uninit)
    (registry : ∀ b, (t.block b).claim = (s.block b).claim ∧ (t.block b).owner = (s.block b).owner) : t.RegistryOk := by
  intro d hd
  obtain ⟨claim, owner⟩ := registry (s.blockOf d)
  rw [blockOf_eq_of_cfg cfg, claim, owner, ne_eq, life]
  exact h d (cfg ▸ hd)

/-- Two devices of one block are never both out of UNINIT. -/
theorem State.RegistryOk.unique (h : s.RegistryOk) {e : Nat} (hd : d < s.cfg.numDev) (he : e < s.cfg.numDev)
    (same : s.blockOf d = s.blockOf e) (outD : (s.device d).st ≠ .uninit) (outE : (s.device e).st ≠ .uninit) : d = e := by
  obtain ⟨_, ownerD⟩ := (h d hd).1 outD
  obtain ⟨_, ownerE⟩ := (h e he).1 outE
  rw [← ownerD, same, ownerE]

/-- `OPEN` of a free block (R192). -/
theorem claimDevice_registryOk {rxCap txCap : Nat} (h : s.RegistryOk) (device : d < s.dev.length)
    (block : s.blockOf d < s.blk.length) (free : (s.block (s.blockOf d)).claim = false) :
    (s.claimDevice d rxCap txCap).RegistryOk := by
  have claimed : (s.claimDevice d rxCap txCap).device d = _ := device_of_dev_set (s := s) rfl device
  have entry : (s.claimDevice d rxCap txCap).block (s.blockOf d) = _ := block_of_blk_set rfl block
  intro e he
  change ¬ _ ↔ ((s.claimDevice d rxCap txCap).block (s.blockOf e)).claim = true ∧
    ((s.claimDevice d rxCap txCap).block (s.blockOf e)).owner = e
  rcases eq_or_ne e d with rfl | other
  · simp [claimed, entry]
  · rw [otherDevices_of_dev_set (s := s) (t := s.claimDevice d rxCap txCap) rfl e other]
    by_cases same : s.blockOf e = s.blockOf d
    · have uninit := h e he
      simp only [same, free] at uninit
      simp only [same, entry, uninit, Ne.symm other]
      simp
    · rw [otherBlocks_of_blk_set (s := s) (t := s.claimDevice d rxCap txCap) rfl _ same]
      exact h e he

/-- `CLOSE` of an open device (R195). -/
theorem releaseDevice_registryOk (h : s.RegistryOk) (inConfig : d < s.cfg.numDev) (device : d < s.dev.length)
    (block : s.blockOf d < s.blk.length) (opened : (s.device d).st ≠ .uninit) : (s.releaseDevice d).RegistryOk := by
  have released := device_of_dev_set (releaseDevice_dev device) device
  have entry := block_of_blk_set (releaseDevice_blk block) block
  intro e he
  rw [releaseDevice_cfg] at he
  rw [blockOf_eq_of_cfg releaseDevice_cfg]
  rcases eq_or_ne e d with rfl | other
  · simp [released, entry, DevState.reset, BlockState.reset]
  · rw [otherDevices_of_dev_set (releaseDevice_dev device) e other]
    by_cases same : s.blockOf e = s.blockOf d
    · have uninit : (s.device e).st = .uninit := not_not.1 fun out => other (h.unique he inConfig same out opened)
      simp [same, entry, uninit, BlockState.reset]
    · rw [otherBlocks_of_blk_set (releaseDevice_blk block) _ same]
      exact h e he

/-- A step of an instruction keeps the registry invariant: only `OPEN` and `CLOSE` write the registry, and `BEGIN` takes its
device from CONFIGURED. -/
theorem exec_registryOk {i : Instr} (fits : s.Fits) (h : s.RegistryOk) (e : exec i s = .next t) : t.RegistryOk := by
  have w := exec_writes e
  by_cases opens : ∃ d, i = .devOpen d
  · obtain ⟨d, rfl⟩ := opens
    obtain ⟨c, rfl⟩ | ⟨present, _, _, free, rfl⟩ := exec_devOpen_cases e
    · exact h
    · obtain ⟨device, block⟩ := fits.device_inRange present
      exact claimDevice_registryOk h device block free
  by_cases closes : ∃ d, i = .devClose d
  · obtain ⟨d, rfl⟩ := closes
    obtain ⟨c, rfl⟩ | ⟨present, opened, rfl⟩ := exec_devClose_cases e
    · exact h
    · obtain ⟨device, block⟩ := fits.device_inRange present
      exact releaseDevice_registryOk h (Config.lt_of_hasDevice present) device block opened
  refine h.congr w.cfg_eq (fun d => ?_) (fun b => ?_)
  · rcases (w.device_write d).st with same | ⟨_, ⟨hi, _⟩ | ⟨_, configured, running⟩ | ⟨hi, _⟩⟩
    · rw [same]
    · exact absurd ⟨d, Option.some.inj hi⟩ opens
    · simp [configured, running]
    · exact absurd ⟨d, Option.some.inj hi⟩ closes
  · rcases (w.block_write b).registry with same | ⟨d, _, _, ⟨hi, _⟩ | ⟨hi, _⟩⟩
    · exact same
    · exact absurd ⟨d, Option.some.inj hi⟩ opens
    · exact absurd ⟨d, Option.some.inj hi⟩ closes

/-- Writes with no instruction's permission leave the lifecycle and the registry. -/
theorem State.Writes.registryOk (w : s.Writes none t) (h : s.RegistryOk) : t.RegistryOk := by
  refine h.congr w.cfg_eq (fun d => ?_) (fun b => ?_)
  · rw [(w.device_write d).st.resolve_right (by simp [State.LifeWrite])]
  · exact (w.block_write b).registry.resolve_right (by simp [State.ClaimWrite])

/-! ## Steps -/

/-- A step of an instruction is the instruction's next step, or a schedule's entry that passes (R60). -/
theorem State.Runs.exec_or_passes {i : Instr} (runs : s.Runs i) (step : step s = .next t) :
    exec i s.afterChoice = .next t ∨ t = s.afterChoice := by
  rcases step_cases s with ⟨_, e⟩ | ⟨_, _, e⟩ | ⟨_, _, e⟩ <;> rw [e] at step
  · cases step
  · left
    obtain ⟨chosen, cur, word⟩ | ⟨g, chosen | chosen, rfl⟩ := runs <;> rw [chosen] at step
    · rwa [runEvent_app_of_decode (by rwa [afterChoice_cur]) (by rwa [afterChoice_cmd])] at step
    · exact step
    · exact step
  · exact .inr (Host.Outcome.next.inj step).symm

theorem State.Fits.afterChoice (h : s.Fits) : s.afterChoice.Fits := by
  unfold State.afterChoice
  split <;> exact h

theorem State.RegistryOk.afterChoice (h : s.RegistryOk) : s.afterChoice.RegistryOk :=
  h.congr (afterChoice_cfg s) (fun d => by rw [afterChoice_device]) (fun b => by rw [afterChoice_block]; exact ⟨rfl, rfl⟩)

end Machine

open Machine

/-- Settles O57: the steps that write a lifecycle or a registry entry are those of `OPEN`, `BEGIN` and `CLOSE`
(`exec_registryOk`), and of one block only the owner is out of UNINIT (`State.RegistryOk.unique`). -/
theorem stepKeepsRegistry : Obligations.StepKeepsRegistry := by
  refine ⟨fun s t fits registry step => ?_, fun s registry d hd e he => registry.unique hd he⟩
  obtain ⟨i, w, runs⟩ := step_writes step
  cases i with
  | none => exact w.registryOk registry.afterChoice
  | some i =>
    obtain e | rfl := (runs i rfl).exec_or_passes step
    · exact exec_registryOk fits.afterChoice registry.afterChoice e
    · exact registry.afterChoice

end Sys2Proof
end

section
/-!
SUPPORT. The write and read paths (spec/44_controller.md R196 to R200): what `WRITE`, `PEEK` and `READ` do at each of their
positions, and the two counts a program may ask for.
-/

namespace Sys2Proof
namespace Machine

variable {s : State} {d h n : Nat} {f : Frame} {w : FrameWords} {p : Pos} {i : Instr} {ref : RingRef} {r : Ring}
  {x : Option Frame} {v : Bool}

/-! ## Writing an interrupt enable -/

/-- A write of a device that keeps its rings leaves every ring. -/
theorem ring_setDevice (s : State) {y : DevState} (rings : ∀ sel, y.ring sel = (s.device d).ring sel) (ref : RingRef) :
    (s.setDevice d y).ring ref = s.ring ref := by
  rcases eq_or_ne d ref.dev with rfl | other
  · rcases Nat.lt_or_ge ref.dev s.dev.length with present | absent
    · rw [State.ring, device_setDevice_self _ _ present, rings, State.ring]
    · rw [setDevice_of_length_le _ _ absent]
  · rw [State.ring, device_setDevice_ne _ _ other, State.ring]

@[simp] theorem ring_setRxIe (s : State) (d : Nat) (v : Bool) (ref : RingRef) : (s.setRxIe d v).ring ref = s.ring ref :=
  ring_setDevice s (fun sel => by cases sel <;> rfl) ref

@[simp] theorem ring_setTxIe (s : State) (d : Nat) (v : Bool) (ref : RingRef) : (s.setTxIe d v).ring ref = s.ring ref :=
  ring_setDevice s (fun sel => by cases sel <;> rfl) ref

@[simp] theorem goto_app_setRxIe : (s.goto .app p).setRxIe d v = (s.setRxIe d v).goto .app p := rfl

@[simp] theorem goto_app_setTxIe : (s.goto .app p).setTxIe d v = (s.setTxIe d v).goto .app p := rfl

theorem otherDevices_setDevice (s : State) (d : Nat) (y : DevState) : s.OtherDevices (s.setDevice d y) d :=
  fun _ other => device_setDevice_ne _ _ (Ne.symm other)

/-! ## A transmit attempt (R250) -/

/-- A mailbox of the block is free, its controller is in NORMAL, and where the hardware may fail the draw is true. -/
def State.Transmits (s : State) (b : Nat) : Prop :=
  (s.block b).mbox.length < s.cfg.mboxCount ∧ (s.block b).hwMode = .normal ∧
  (s.cfg.hwTxMayFail = true → drawnBool s.nextDraw = true)

/-- The attempt loads the frame, after a draw or without one. -/
theorem hwTransmit_of_transmits {b : Nat} (sends : s.Transmits b) (f : Frame) :
    ∃ u, (u = s ∨ s.cfg.hwTxMayFail = true ∧ u = s.afterDraw) ∧ s.hwTransmit b f = (true, u.loadMailbox b f) := by
  obtain ⟨room, normal, answer⟩ := sends
  rcases hwTransmit_cases s b f with ⟨_, _, e⟩ | ⟨_, mayFail, _, e⟩ | ⟨_, mayFail, failed, _⟩ | ⟨blocked, _⟩
  · exact ⟨s, .inl rfl, e⟩
  · exact ⟨s.afterDraw, .inr ⟨mayFail, rfl⟩, e⟩
  · simp [answer mayFail] at failed
  · simp [State.canTransmit, room, normal] at blocked

/-- The attempt fails, after a draw or without one, and changes nothing else. -/
theorem hwTransmit_of_not_transmits {b : Nat} (fails : ¬ s.Transmits b) (f : Frame) :
    ∃ u, (u = s ∨ u = s.afterDraw) ∧ s.hwTransmit b f = (false, u) := by
  have sends (free : s.canTransmit b = true) (answer : s.cfg.hwTxMayFail = true → drawnBool s.nextDraw = true) : s.Transmits b := by
    simp only [State.canTransmit, Bool.and_eq_true, decide_eq_true_eq] at free
    exact ⟨free.1, free.2, answer⟩
  rcases hwTransmit_cases s b f with ⟨free, never, _⟩ | ⟨free, _, drawn, _⟩ | ⟨_, _, _, e⟩ | ⟨_, e⟩
  · exact absurd (sends free (by simp [never])) fails
  · exact absurd (sends free fun _ => drawn) fails
  · exact ⟨s.afterDraw, .inr rfl, e⟩
  · exact ⟨s, .inl rfl, e⟩

/-! ## `WRITE` (R196) -/

theorem exec_write_start (ready : s.Ready d) (start : s.pos = .start) : exec (.write d) s =
    .next (if s.argFrame.valid then s.goto .app (.testEmpty (Frame.ofWords s.argFrame)) else s.finish .errArg []) := by
  rw [exec, execWrite, start, whenRunning_of_ready ready]

theorem exec_write_testEmpty (pos : s.pos = .testEmpty f) :
    exec (.write d) s = .next (s.goto .app (if (s.ring ⟨d, .tx⟩).isEmpty then .direct f else .pushCheck f)) := by
  rw [exec, execWrite, pos]

theorem exec_write_direct_sent (pos : s.pos = .direct f) (sends : s.Transmits (s.blockOf d)) :
    ∃ u, (u = s ∨ s.cfg.hwTxMayFail = true ∧ u = s.afterDraw) ∧
    exec (.write d) s = .next ((u.loadMailbox (s.blockOf d) f).goto .app .directDone) := by
  obtain ⟨u, draws, e⟩ := hwTransmit_of_transmits sends f
  exact ⟨u, draws, by rw [exec, execWrite, pos]; simp only [e]⟩

theorem exec_write_direct_failed (pos : s.pos = .direct f) (fails : ¬ s.Transmits (s.blockOf d)) :
    ∃ u, (u = s ∨ u = s.afterDraw) ∧
    exec (.write d) s = .next (u.goto .app (if (s.ring ⟨d, .tx⟩).cap = 0 then .noQueue else .pushCheck f)) := by
  obtain ⟨u, draws, e⟩ := hwTransmit_of_not_transmits fails f
  refine ⟨u, draws, ?_⟩
  have ring : u.ring ⟨d, .tx⟩ = s.ring ⟨d, .tx⟩ := by rcases draws with rfl | rfl <;> rfl
  rw [exec, execWrite, pos]
  simp only [e, ring]

theorem exec_write_directDone (pos : s.pos = .directDone) : exec (.write d) s = .next (s.finish .ok [0]) := by
  rw [exec, execWrite, pos]

theorem exec_write_noQueue (pos : s.pos = .noQueue) : exec (.write d) s = .next (s.finish .full []) := by
  rw [exec, execWrite, pos]

theorem exec_write_pushCheck (pos : s.pos = .pushCheck f) : exec (.write d) s =
    .next (s.goto .app (if (s.ring ⟨d, .tx⟩).isFull then .finishBool false else .pushFill (s.ring ⟨d, .tx⟩).head f)) := by
  rw [exec, execWrite, pos]
  exact congrArg _ (pushCheckStep_eq ..)

theorem exec_write_pushFill (pos : s.pos = .pushFill h f) (slot : h < (s.ring ⟨d, .tx⟩).cap) : exec (.write d) s =
    .next ((s.setRing ⟨d, .tx⟩ ((s.ring ⟨d, .tx⟩).store h f.words)).goto .app (.pushPublish h)) := by
  rw [exec, execWrite, pos]
  exact congrArg _ (pushFillStep_store slot)

theorem exec_write_pushPublish (pos : s.pos = .pushPublish h) : exec (.write d) s =
    .next ((s.setRing ⟨d, .tx⟩ ((s.ring ⟨d, .tx⟩).publish h)).goto .app (.finishBool true)) := by
  rw [exec, execWrite, pos]
  rfl

theorem exec_write_queued (pos : s.pos = .finishBool true) :
    exec (.write d) s = .next ((s.setTxIe d true).finish .ok [1]) := by
  rw [exec, execWrite, pos]

theorem exec_write_full (pos : s.pos = .finishBool false) : exec (.write d) s = .next (s.finish .full []) := by
  rw [exec, execWrite, pos]

/-! ## `PEEK` and `READ` (R199, R200) -/

/-- `PEEK` or `READ` of device `d`: the two differ only in what follows the read of the slot. -/
def Instr.Reads (i : Instr) (d : Nat) : Prop := i = .peek d ∨ i = .read d

theorem exec_reads_start (reads : Instr.Reads i d) (ready : s.Ready d) (start : s.pos = .start) :
    exec i s = .next (s.goto .app .mask) := by
  rcases reads with rfl | rfl
  · rw [exec, execPeek, start, whenRunning_of_ready ready]
  · rw [exec, execRead, start, whenRunning_of_ready ready]

/-- Masking comes before the ring is touched (R203(c)). -/
theorem exec_reads_mask (reads : Instr.Reads i d) (pos : s.pos = .mask) :
    exec i s = .next ((s.setRxIe d false).goto .app .peekCheck) := by
  rcases reads with rfl | rfl
  · rw [exec, execPeek, pos]
  · rw [exec, execRead, pos]

theorem exec_reads_peekCheck (reads : Instr.Reads i d) (pos : s.pos = .peekCheck) : exec i s =
    .next (s.goto .app (if (s.ring ⟨d, .rx⟩).isEmpty then .finishFrame none else .peekRead (s.ring ⟨d, .rx⟩).tail)) := by
  rcases reads with rfl | rfl
  · rw [exec, execPeek, pos]
    exact congrArg _ (peekCheckStep_eq ..)
  · rw [exec, execRead, pos]
    exact congrArg _ (peekCheckStep_eq ..)

theorem exec_peek_peekRead (pos : s.pos = .peekRead n) (read : (s.ring ⟨d, .rx⟩).readSlot n = .ok w) :
    exec (.peek d) s = .next (s.goto .app (.finishFrame (some (Frame.ofWords w)))) := by
  rw [exec, execPeek, pos]
  exact congrArg _ (peekReadStep_ok read)

theorem exec_read_peekRead (pos : s.pos = .peekRead n) (read : (s.ring ⟨d, .rx⟩).readSlot n = .ok w) :
    exec (.read d) s = .next (s.goto .app (.popCheck (some (Frame.ofWords w)))) := by
  rw [exec, execRead, pos]
  exact congrArg _ (peekReadStep_ok read)

theorem exec_read_popCheck (pos : s.pos = .popCheck x) : exec (.read d) s =
    .next (s.goto .app (if (s.ring ⟨d, .rx⟩).isEmpty then .finishFrame x else .popAdvance (s.ring ⟨d, .rx⟩).tail x)) := by
  rw [exec, execRead, pos]
  exact congrArg _ (popCheckStep_eq ..)

theorem exec_read_popAdvance (pos : s.pos = .popAdvance n x) : exec (.read d) s =
    .next ((s.setRing ⟨d, .rx⟩ ((s.ring ⟨d, .rx⟩).advance n)).goto .app (.finishFrame x)) := by
  rw [exec, execRead, pos]
  rfl

theorem exec_reads_finishFrame (reads : Instr.Reads i d) (pos : s.pos = .finishFrame x) :
    exec i s = .next (finishRead d x s) := by
  rcases reads with rfl | rfl
  · rw [exec, execPeek, pos]
  · rw [exec, execRead, pos]

/-- The last step re-arms the RX interrupt whatever it was (R199, R200). -/
theorem finishRead_eq (d : Nat) (x : Option Frame) (s : State) : finishRead d x s =
    (s.setRxIe d true).finish (if x = none then .empty else .ok) (match x with
      | none => []
      | some f => f.results) := by
  cases x <;> rfl

end Machine

open Machine

/-- Settles O36: the step rules of `WRITE`; a direct send is `hwTransmit_of_transmits`, what the fill stores and leaves is
`storesFrame_store`. -/
theorem writeSteps : Obligations.WriteSteps := by
  refine fun d => ⟨startsOnRunning (i := .write d) nofun nofun nofun nofun nofun, fun s fits inConfig => ?_⟩
  obtain ⟨present, inRange⟩ := fits.device_inRange inConfig
  refine ⟨fun start ready => ⟨fun invalid => ?invalid, fun valid => ?valid⟩, fun f cur => ?test, fun f cur => ?direct,
    exec_write_directDone rfl, exec_write_noQueue rfl, fun f cur => ?check, fun h f cur slot => ?fill,
    fun h cur => ?publish, fun cur => ?queued, exec_write_full rfl⟩
  case invalid => rw [exec_write_start ready start, if_neg (Bool.eq_false_iff.1 invalid)]
  case valid =>
    rw [exec_write_start ready start, if_pos valid]
    rfl
  case test =>
    rw [exec_write_testEmpty (pos_of_cur cur)]
    simp only [Ring.isEmpty_iff]
    rfl
  case direct =>
    by_cases sends : s.Transmits (s.blockOf d)
    · obtain ⟨u, draws, e⟩ := exec_write_direct_sent (pos_of_cur cur) sends
      refine ⟨_, e, fun _ _ _ => ⟨rfl, ?_⟩, fun fails => absurd sends fails⟩
      rcases draws with rfl | ⟨_, rfl⟩
      · exact ⟨block_setBlock_self _ _ inRange, fun c other => block_setBlock_ne _ _ (Ne.symm other), rfl⟩
      · exact ⟨block_setBlock_self _ _ inRange, fun c other => block_setBlock_ne _ _ (Ne.symm other), rfl⟩
    · obtain ⟨u, draws, e⟩ := exec_write_direct_failed (pos_of_cur cur) sends
      refine ⟨_, e, fun room normal answer => absurd ⟨room, normal, answer⟩ sends, fun _ => ⟨rfl, ?_⟩⟩
      rcases draws with rfl | rfl <;> rfl
  case check =>
    rw [exec_write_pushCheck (pos_of_cur cur)]
    simp only [Ring.isFull_iff]
    rfl
  case fill => exact ⟨_, exec_write_pushFill (pos_of_cur cur) slot, rfl, rfl, storesFrame_store present⟩
  case publish =>
    exact ⟨_, exec_write_pushPublish (pos_of_cur cur), rfl, device_setRing_self _ present,
      fun e other => otherDevices_setRing e other, rfl⟩
  case queued =>
    exact ⟨_, exec_write_queued (pos_of_cur cur), rfl, rfl, rfl, device_setDevice_self _ _ present,
      otherDevices_setDevice s d _, rfl⟩

/-- Settles O39: the step rules of `PEEK` and `READ`, which differ only after the read of the slot. -/
theorem peekReadSteps : Obligations.PeekReadSteps := by
  refine fun d => ⟨startsOnRunning (i := .peek d) nofun nofun nofun nofun nofun,
    startsOnRunning (i := .read d) nofun nofun nofun nofun nofun, fun s present =>
    ⟨fun start ready => ⟨exec_reads_start (.inl rfl) ready start, exec_reads_start (.inr rfl) ready start⟩,
      fun cur => ?mask, fun cur => ?check, fun n w cur read => ?read, fun x cur => ?popCheck, fun n x cur => ?advance,
      fun x cur => ?last⟩⟩
  case mask =>
    exact ⟨_, exec_reads_mask (.inl rfl) (pos_of_cur cur), exec_reads_mask (.inr rfl) (pos_of_cur cur), rfl,
      device_setDevice_self _ _ present, otherDevices_setDevice s d _, rfl⟩
  case check =>
    rw [exec_reads_peekCheck (.inl rfl) (pos_of_cur cur), exec_reads_peekCheck (.inr rfl) (pos_of_cur cur)]
    simp only [Ring.isEmpty_iff, true_and]
    rfl
  case read => exact ⟨exec_peek_peekRead (pos_of_cur cur) read, exec_read_peekRead (pos_of_cur cur) read⟩
  case popCheck =>
    rw [exec_read_popCheck (pos_of_cur cur)]
    simp only [Ring.isEmpty_iff]
    rfl
  case advance =>
    exact ⟨_, exec_read_popAdvance (pos_of_cur cur), rfl, device_setRing_self _ present,
      fun e other => otherDevices_setRing e other, rfl⟩
  case last =>
    refine ⟨_, exec_reads_finishFrame (.inl rfl) (pos_of_cur cur), exec_reads_finishFrame (.inr rfl) (pos_of_cur cur), ?_⟩
    rw [finishRead_eq]
    refine ⟨rfl, rfl, ?_, device_setDevice_self _ _ present, otherDevices_setDevice s d _, rfl⟩
    cases x <;> rfl

end Sys2Proof
end

section
/-!
SUPPORT. Uninterrupted runs of `WRITE`, `PEEK` and `READ` (spec/44_controller.md R196, R199, R200): the chain of their steps, and
the state it ends in.
-/

namespace Sys2Proof
namespace Machine

variable {s : State} {d n : Nat} {w : FrameWords} {i : Instr}

/-! ## Re-arming after masking -/

theorem setRxIe_setRxIe (v w : Bool) (present : d < s.dev.length) : (s.setRxIe d v).setRxIe d w = s.setRxIe d w := by
  rw [State.setRxIe, State.setRxIe, device_setDevice_self _ _ present]
  simp [State.setRxIe, State.setDevice]

theorem setRing_setRxIe (v : Bool) (r : Ring) (present : d < s.dev.length) :
    (s.setRxIe d v).setRing ⟨d, .rx⟩ r = (s.setRing ⟨d, .rx⟩ r).setRxIe d v := by
  rw [State.setRing, State.setRxIe, device_setDevice_self _ _ present, State.setRxIe, device_setRing_self r present]
  simp [State.setRing, State.setDevice, DevState.setRing]

/-! ## A ring and an enable of one device written -/

section Both

variable {sel : RingSel} {r : Ring}

theorem device_setTxIe_setRing (present : d < s.dev.length) : ((s.setRing ⟨d, sel⟩ r).setTxIe d true).device d =
    { (s.device d).setRing sel r with txIe := true } := by
  rw [State.setTxIe, device_setDevice_self _ _ (by rwa [setRing_dev_length]), device_setRing_self r present]

theorem device_setRxIe_setRing (present : d < s.dev.length) : ((s.setRing ⟨d, sel⟩ r).setRxIe d true).device d =
    { (s.device d).setRing sel r with rxIe := true } := by
  rw [State.setRxIe, device_setDevice_self _ _ (by rwa [setRing_dev_length]), device_setRing_self r present]

theorem otherDevices_setTxIe_setRing : s.OtherDevices ((s.setRing ⟨d, sel⟩ r).setTxIe d true) d := fun e other =>
  (otherDevices_setDevice _ d _ e other).trans (otherDevices_setRing e other)

theorem otherDevices_setRxIe_setRing : s.OtherDevices ((s.setRing ⟨d, sel⟩ r).setRxIe d true) d := fun e other =>
  (otherDevices_setDevice _ d _ e other).trans (otherDevices_setRing e other)

end Both

theorem execTimes_reads_last (reads : Instr.Reads i d) (x : Option Frame) (u : State) :
    execTimes i 1 (u.goto .app (.finishFrame x)) = .next (finishRead d x u) := by
  rw [execTimes_succ (exec_reads_finishFrame reads goto_app_pos)]
  cases x <;> rfl

section Run

variable (ready : s.Ready d) (start : s.pos = .start)

include ready start

/-! ## `WRITE` -/

section Write

variable (valid : s.argFrame.valid = true)

include valid

/-- The four steps of a direct send: check, empty test, transmit attempt, end. -/
theorem execTimes_write_direct (empty : (s.ring ⟨d, .tx⟩).isEmpty = true) (sends : s.Transmits (s.blockOf d))
    (certain : s.cfg.hwTxMayFail = false) : execTimes (.write d) 4 s =
      .next ((s.loadMailbox (s.blockOf d) (Frame.ofWords s.argFrame)).finish .ok [0]) := by
  rw [execTimes_succ (exec_write_start ready start), if_pos valid, execTimes_succ (exec_write_testEmpty goto_app_pos),
    goto_ring, if_pos empty, goto_app_goto_app]
  obtain ⟨u, rfl | ⟨mayFail, _⟩, sent⟩ := exec_write_direct_sent (s := s.goto .app (.direct (Frame.ofWords s.argFrame)))
    goto_app_pos sends
  · rw [execTimes_succ sent, execTimes_succ (exec_write_directDone goto_app_pos)]
    rfl
  · exact absurd mayFail (Bool.eq_false_iff.1 certain)

/-- The first two steps of a write to a ring that is not empty: check and empty test. -/
theorem execTimes_write_occupied (occupied : (s.ring ⟨d, .tx⟩).isEmpty = false) (n : Nat) : execTimes (.write d) (n + 2) s =
    execTimes (.write d) n (s.goto .app (.pushCheck (Frame.ofWords s.argFrame))) := by
  rw [execTimes_succ (exec_write_start ready start), if_pos valid, execTimes_succ (exec_write_testEmpty goto_app_pos),
    goto_ring, if_neg (Bool.eq_false_iff.1 occupied), goto_app_goto_app]

theorem execTimes_write_full (occupied : (s.ring ⟨d, .tx⟩).isEmpty = false) (full : (s.ring ⟨d, .tx⟩).isFull = true) :
    execTimes (.write d) 4 s = .next (s.finish .full []) := by
  rw [execTimes_write_occupied ready start valid occupied, execTimes_succ (exec_write_pushCheck goto_app_pos), goto_ring,
    if_pos full, execTimes_succ (exec_write_full goto_app_pos)]
  rfl

/-- The six steps of a queued write: check, empty test, full test, fill, publish, end. -/
theorem execTimes_write_queued (present : d < s.dev.length) (ok : (s.ring ⟨d, .tx⟩).Ok)
    (occupied : (s.ring ⟨d, .tx⟩).isEmpty = false) (room : (s.ring ⟨d, .tx⟩).isFull = false) : execTimes (.write d) 6 s =
      .next (((s.setRing ⟨d, .tx⟩ ((s.ring ⟨d, .tx⟩).push s.argFrame)).setTxIe d true).finish .ok [1]) := by
  have slot := ok.head_lt (Ring.cap_ne_zero_of_not_full room)
  rw [execTimes_write_occupied ready start valid occupied, execTimes_succ (exec_write_pushCheck goto_app_pos),
    goto_ring, if_neg (Bool.eq_false_iff.1 room), goto_app_goto_app,
    execTimes_succ (exec_write_pushFill goto_app_pos (by rwa [goto_ring])), goto_ring, Frame.words_ofWords valid,
    goto_app_setRing, goto_app_goto_app, execTimes_succ (exec_write_pushPublish goto_app_pos), goto_ring,
    ring_setRing_self _ _ present, goto_app_setRing, goto_app_goto_app, setRing_setRing _ present,
    execTimes_succ (exec_write_queued goto_app_pos), goto_app_setTxIe, goto_app_finish]
  rfl

end Write

/-! ## `PEEK` and `READ` -/

/-- The first two steps: check, then mask. -/
theorem execTimes_reads_masked (reads : Instr.Reads i d) (n : Nat) :
    execTimes i (n + 2) s = execTimes i n ((s.setRxIe d false).goto .app .peekCheck) := by
  rw [execTimes_succ (exec_reads_start reads ready start), execTimes_succ (exec_reads_mask reads goto_app_pos),
    goto_app_setRxIe, goto_app_goto_app]

/-- The four steps on an empty ring: check, mask, empty test, end. -/
theorem execTimes_reads_empty (reads : Instr.Reads i d) (present : d < s.dev.length)
    (empty : (s.ring ⟨d, .rx⟩).isEmpty = true) : execTimes i 4 s = .next (finishRead d none s) := by
  rw [execTimes_reads_masked ready start reads, execTimes_succ (exec_reads_peekCheck reads goto_app_pos), goto_ring,
    ring_setRxIe, if_pos empty, goto_app_goto_app, execTimes_reads_last reads, finishRead_eq,
    setRxIe_setRxIe _ _ present, finishRead_eq]

/-- The five steps of `PEEK` on a ring that is not empty: check, mask, empty test, read of the slot, end. -/
theorem execTimes_peek (present : d < s.dev.length) (occupied : (s.ring ⟨d, .rx⟩).isEmpty = false)
    (read : (s.ring ⟨d, .rx⟩).readSlot (s.ring ⟨d, .rx⟩).tail = .ok w) :
    execTimes (.peek d) 5 s = .next (finishRead d (some (Frame.ofWords w)) s) := by
  rw [execTimes_reads_masked ready start (.inl rfl), execTimes_succ (exec_reads_peekCheck (.inl rfl) goto_app_pos), goto_ring,
    ring_setRxIe, if_neg (Bool.eq_false_iff.1 occupied), goto_app_goto_app,
    execTimes_succ (exec_peek_peekRead goto_app_pos (by rwa [goto_ring, ring_setRxIe])), goto_app_goto_app,
    execTimes_reads_last (.inl rfl), finishRead_eq, setRxIe_setRxIe _ _ present, finishRead_eq]

/-- The seven steps of `READ` on a ring that is not empty: those of `PEEK`, with a second empty test and the advance before the
end. -/
theorem execTimes_read (present : d < s.dev.length) (occupied : (s.ring ⟨d, .rx⟩).isEmpty = false)
    (read : (s.ring ⟨d, .rx⟩).readSlot (s.ring ⟨d, .rx⟩).tail = .ok w) : execTimes (.read d) 7 s =
      .next (finishRead d (some (Frame.ofWords w))
        (s.setRing ⟨d, .rx⟩ ((s.ring ⟨d, .rx⟩).advance (s.ring ⟨d, .rx⟩).tail))) := by
  rw [execTimes_reads_masked ready start (.inr rfl), execTimes_succ (exec_reads_peekCheck (.inr rfl) goto_app_pos), goto_ring,
    ring_setRxIe, if_neg (Bool.eq_false_iff.1 occupied), goto_app_goto_app,
    execTimes_succ (exec_read_peekRead goto_app_pos (by rwa [goto_ring, ring_setRxIe])), goto_app_goto_app,
    execTimes_succ (exec_read_popCheck goto_app_pos), goto_ring, ring_setRxIe, if_neg (Bool.eq_false_iff.1 occupied),
    goto_app_goto_app, execTimes_succ (exec_read_popAdvance goto_app_pos), goto_ring, ring_setRxIe, goto_app_setRing,
    goto_app_goto_app, setRing_setRxIe _ _ present, execTimes_reads_last (.inr rfl), finishRead_eq,
    setRxIe_setRxIe _ _ (by rwa [setRing_dev_length]), finishRead_eq]

end Run
end Machine

open Machine

/-- Settles O37: a direct send loads the last mailbox (`execTimes_write_direct`), a queued write is a push of one frame
(`execTimes_write_queued`). -/
theorem writeRun : Obligations.WriteRun := by
  refine fun d s fits ready ok start valid => ⟨fun empty room normal certain => ?direct, fun occupied room => ?queued,
    execTimes_write_full ready start valid⟩
  case direct =>
    refine ⟨_, execTimes_write_direct ready start valid empty ⟨room, normal, fun mayFail => ?_⟩ certain, rfl, rfl, rfl,
      block_setBlock_self _ _ (fits.device_inRange ready.1).2, fun c other => block_setBlock_ne _ _ (Ne.symm other), rfl⟩
    exact absurd mayFail (Bool.eq_false_iff.1 certain)
  case queued =>
    have present := ready.lt_dev_length fits.2
    have allocated := Ring.cap_ne_zero_of_not_full room
    refine ⟨_, execTimes_write_queued ready start valid present ok occupied room, rfl, rfl, rfl, ?_⟩
    rw [ring_eq_of_dev (finish_dev ..), ring_setTxIe, ring_setRing_self _ _ present, device_eq_of_dev (finish_dev ..),
      device_setTxIe_setRing present]
    refine ⟨Ring.contents_push (ok.head_lt allocated) (ok.tail_lt allocated) room, rfl, fun a => Ring.read_push_ne, rfl,
      otherDevices_setTxIe_setRing, rfl⟩

/-- Settles O40: the oldest slot of a ring that is not empty is written, so it is read (`execTimes_peek`), and `READ` advances
past it (`execTimes_read`). -/
theorem peekReadRun : Obligations.PeekReadRun := by
  refine fun d s fits ready ok start => ⟨fun empty => ?empty, fun occupied => ?occupied⟩
  all_goals have present := ready.lt_dev_length fits.2
  case empty =>
    exact ⟨_, execTimes_reads_empty ready start (.inl rfl) present empty,
      execTimes_reads_empty ready start (.inr rfl) present empty, rfl, rfl, rfl, device_setDevice_self _ _ present,
      otherDevices_setDevice s d _, rfl⟩
  case occupied =>
    have allocated := Ring.cap_ne_zero_of_not_empty occupied
    obtain ⟨w, read⟩ := ok.readSlot_tail occupied
    have contents := Ring.contents_advance (ok.head_lt allocated) (ok.tail_lt allocated) occupied
    rw [read] at contents
    refine ⟨w, _, _, _, contents, execTimes_peek ready start present occupied read, rfl, rfl, rfl,
      device_setDevice_self _ _ present, otherDevices_setDevice s d _, rfl,
      execTimes_read ready start present occupied read, rfl, rfl, rfl, ?_, device_setRxIe_setRing present,
      otherDevices_setRxIe_setRing, rfl⟩
    rw [finishRead_eq, ring_eq_of_dev (finish_dev ..), ring_setRxIe, ring_setRing_self _ _ present]

end Sys2Proof
end

section
/-!
SUPPORT. What a program may ask of a running device: the two counts (spec/44_controller.md R197, R198) and the error register
with its classification (R201, R202).
-/

namespace Sys2Proof
namespace Machine

variable {s : State} {r : Ring} {esr : Word} {i k : Nat}

/-! ## Counts (R104, R108, R291) -/

/-- Space and count share `CAP - 1` slots. -/
theorem Ring.space_add_count (r : Ring) : r.space + r.count = r.cap - 1 := by
  rcases Nat.eq_zero_or_pos r.cap with none | allocated
  · obtain ⟨_, _, count, space⟩ := Ring.queries_of_cap_eq_zero none
    omega
  · have bound := Ring.count_lt allocated
    rw [Ring.space_eq allocated.ne']
    omega

theorem Ring.Ok.isEmpty_iff_count (ok : r.Ok) : r.isEmpty = true ↔ r.count = 0 := by
  rcases Nat.eq_zero_or_pos r.cap with none | allocated
  · obtain ⟨empty, _, count, _⟩ := Ring.queries_of_cap_eq_zero none
    exact iff_of_true empty count
  · exact Ring.isEmpty_iff_count (ok.head_lt allocated.ne') (ok.tail_lt allocated.ne')

/-- The largest capacity is 512 (R6). -/
theorem Ring.Ok.cap_le (ok : r.Ok) : r.cap ≤ 512 :=
  (by decide : ∀ c ∈ Config.capSetTx, c ≤ 512) _ ok.1

theorem Config.mboxCount_le {c : Config} (admitted : c.admitted = true) : c.mboxCount ≤ 8 := by
  obtain ⟨ranges, _⟩ := c.admitted_iff.1 admitted
  obtain ⟨_, _, _, _, _, _, _, _, bound, _⟩ := c.inRange_iff.1 ranges
  exact bound

/-- One listed register leaves 0 in the others. -/
theorem Words8.get_ofList_singleton (v : Word) (positive : 0 < i) (bound : i < 8) : (Words8.ofList [v]).get i = 0 := by
  interval_cases i <;> rfl

/-! ## The error register (R80, R242) and its classification (R202) -/

theorem errorRegister_reserved (w : Word) : errorRegister w &&& 0x0000FF88 = 0 := by
  rw [errorRegister, BitVec.and_assoc]
  exact BitVec.and_zero

theorem errorRegister_of_reserved {w : Word} (clear : w &&& 0x0000FF88 = 0) : errorRegister w = w := by
  have split : w = w &&& 0xFFFF0077 ||| w &&& 0x0000FF88 := by
    rw [← BitVec.and_or_distrib_left]
    exact BitVec.and_allOnes.symm
  rw [clear] at split
  exact (split.trans BitVec.or_zero).symm

theorem getLsbD_one_shiftLeft (bit : k < 32) : ((1 : Word) <<< k).getLsbD i = true ↔ i = k := by
  show (BitVec.twoPow 32 k).getLsbD i = true ↔ i = k
  rw [BitVec.getLsbD_twoPow]
  simp [bit, eq_comm]

/-- The error kind sets the bit of the last error code. -/
theorem getLsbD_errorKind : (errorKind esr).getLsbD i = true ↔
    (i = 0 ∧ field esr 4 3 = 1) ∨ (i = 1 ∧ field esr 4 3 = 2) ∨ (i = 2 ∧ field esr 4 3 = 3) ∨
    (i = 3 ∧ (field esr 4 3 = 4 ∨ field esr 4 3 = 5)) ∨ (i = 4 ∧ field esr 4 3 = 6) ∨ (i = 5 ∧ field esr 4 3 = 7) := by
  have bound := field_lt esr 4 3
  rw [errorKind, ← field]
  generalize field esr 4 3 = lec at bound ⊢
  interval_cases lec
  · simp
  all_goals exact (getLsbD_one_shiftLeft (by decide)).trans (by simp)

/-- The health tier sets one of bits 8 to 10 at most. -/
theorem getLsbD_errorTier : (errorTier esr).getLsbD i = true ↔
    (i = 10 ∧ esr.getLsbD 2 = true) ∨
    (i = 9 ∧ esr.getLsbD 2 = false ∧ (127 < field esr 16 8 ∨ 127 < field esr 24 8)) ∨
    (i = 8 ∧ esr.getLsbD 2 = false ∧ field esr 16 8 ≤ 127 ∧ field esr 24 8 ≤ 127 ∧
      (96 ≤ field esr 16 8 ∨ 96 ≤ field esr 24 8)) := by
  rw [errorTier, ← field, ← field]
  generalize esr.getLsbD 2 = busOff
  cases busOff
  case true => exact (getLsbD_one_shiftLeft (by decide)).trans (by simp)
  case false =>
    rw [if_neg nofun]
    split
    case isTrue passive => exact (getLsbD_one_shiftLeft (by decide)).trans (by simp; omega)
    case isFalse active =>
      split
      case isTrue warning => exact (getLsbD_one_shiftLeft (by decide)).trans (by simp; omega)
      case isFalse healthy => simp; omega

theorem errorKind_eq_zero_iff : errorKind esr = 0 ↔ field esr 4 3 = 0 := by
  have bound := field_lt esr 4 3
  rw [errorKind, ← field]
  generalize field esr 4 3 = lec at bound ⊢
  interval_cases lec <;> decide

theorem errorTier_eq_zero_iff : errorTier esr = 0 ↔
    esr.getLsbD 2 = false ∧ field esr 16 8 < 96 ∧ field esr 24 8 < 96 := by
  rw [errorTier, ← field, ← field]
  generalize esr.getLsbD 2 = busOff
  cases busOff
  case true => simp
  case false =>
    rw [if_neg nofun]
    split
    case isTrue passive => simp; omega
    case isFalse active => split <;> simp <;> omega

end Machine

open Machine

/-- Settles O38: space and count share the slots of the ring (`Ring.space_add_count`); no sum reaches 2^32. -/
theorem availableQueries : Obligations.AvailableQueries := by
  refine fun d => ⟨startsOnRunning_of_single fun _ => rfl, startsOnRunning_of_single fun _ => rfl,
    fun s start ready ⟨rx, tx⟩ admitted used => ⟨?write, ?read⟩⟩
  case write =>
    refine ⟨_, single_whenRunning_of start ready _, rfl, rfl, rfl, fun i => Words8.get_ofList_singleton _, ?_⟩
    have split := (s.ring ⟨d, .tx⟩).space_add_count
    have slots := tx.cap_le
    have mailboxes := Config.mboxCount_le admitted
    have value : ((Words8.ofList [BitVec.ofNat 32 ((s.ring ⟨d, .tx⟩).space + s.freeMailboxes (s.blockOf d))]).get 0).toNat =
        (s.ring ⟨d, .tx⟩).space + (s.cfg.mboxCount - (s.block (s.blockOf d)).mbox.length) :=
      (BitVec.toNat_ofNat ..).trans <| Nat.mod_eq_of_lt (by rw [State.freeMailboxes]; omega)
    rw [finish_res, value, tx.isEmpty_iff_count, ← List.length_eq_zero_iff]
    omega
  case read =>
    refine ⟨_, single_whenRunning_of start ready _, rfl, rfl, rfl, fun i => Words8.get_ofList_singleton _, ?_⟩
    have split := (s.ring ⟨d, .rx⟩).space_add_count
    have slots := rx.cap_le
    exact (BitVec.toNat_ofNat ..).trans <| Nat.mod_eq_of_lt (by omega)

/-- Settles O41: the register is the draw without its reserved bits, and the two parts of the classification set bits of
their own (`getLsbD_errorKind`, `getLsbD_errorTier`). -/
theorem getError : Obligations.GetError := by
  refine ⟨fun d => ⟨startsOnRunning_of_single fun _ => rfl, fun s start ready => ?register⟩, fun esr => ⟨fun i bound => ?bits, ?none⟩⟩
  case register =>
    refine ⟨_, errorRegister s.nextDraw, single_whenRunning_of start ready _, errorRegister_reserved _, rfl, rfl, rfl, rfl, rfl,
      rfl, fun w rest tape clear => ?_⟩
    rw [State.nextDraw, tape]
    exact errorRegister_of_reserved clear
  case bits =>
    rw [classify, BitVec.getLsbD_or, Bool.or_eq_true, getLsbD_errorKind, getLsbD_errorTier]
    simp only [or_assoc]
  case none =>
    exact BitVec.or_eq_zero_iff.trans (and_congr errorKind_eq_zero_iff errorTier_eq_zero_iff)

end Sys2Proof
end

section
/-!
SUPPORT. Devices and blocks well formed (spec/10_state.md R25, R27, R32): which writes of a device or of a controller keep them
so, and that `OPEN`, `BEGIN`, `SET_BAUDRATE` and `CLOSE` do.
-/

namespace Sys2Proof
namespace Machine

variable {s t : State} {d b : Nat} {x : DevState} {y : BlockState} {r : Ring} {sel : RingSel} {ref : RingRef}

/-! ## Blocks -/

/-- Block `b` holds no more than it can, and is clear while no device of it is RUNNING (`State.BlocksOk` at one block). -/
def State.BlockOk (s : State) (b : Nat) : Prop :=
  (s.block b).mbox.length ≤ s.cfg.mboxCount ∧ (s.block b).rxfifo.length ≤ s.cfg.rxFifoDepth ∧
  (s.Idle b → (s.block b).mbox = [] ∧ (s.block b).rxfifo = [] ∧ (s.block b).hwMode = .reset)

/-- Every device, present or not, reads as well formed, and every block. -/
structure State.DataOk (s : State) : Prop where
  devices : ∀ d, (s.device d).Ok
  blocks : ∀ b < s.cfg.numBlocks, s.BlockOk b

theorem State.Inv.data (h : s.Inv) : s.DataOk := ⟨h.device_ok, h.blocks⟩

/-- A step that stops no device of the block makes it idle only where it was. -/
theorem State.Idle.of_kept (idle : t.Idle b) (cfg : t.cfg = s.cfg)
    (kept : ∀ d, s.blockOf d = b → (s.device d).st = .running → (t.device d).st = .running) : s.Idle b :=
  fun d inConfig ofBlock running =>
    idle d (cfg ▸ inConfig) ((blockOf_eq_of_cfg cfg d).trans ofBlock) (kept d ofBlock running)

theorem State.not_idle (inConfig : d < s.cfg.numDev) (running : (s.device d).st = .running) : ¬ s.Idle (s.blockOf d) :=
  fun idle => idle d inConfig rfl running

/-- A controller in NORMAL has a RUNNING device. -/
theorem State.BlockOk.not_idle_of_normal (h : s.BlockOk b) (normal : (s.block b).hwMode = .normal) : ¬ s.Idle b := fun idle => by
  obtain ⟨_, _, clear⟩ := h
  obtain ⟨_, _, reset⟩ := clear idle
  simp [normal] at reset

/-- An unchanged block stays well formed where it has not become idle. -/
theorem State.BlockOk.of_eq (h : s.BlockOk b) (cfg : t.cfg = s.cfg) (block : t.block b = s.block b)
    (idle : t.Idle b → s.Idle b) : t.BlockOk b := by
  obtain ⟨mbox, rxfifo, clear⟩ := h
  rw [State.BlockOk, cfg, block]
  exact ⟨mbox, rxfifo, fun h => clear (idle h)⟩

theorem device_setDevice_cases (s : State) (d : Nat) (x : DevState) (e : Nat) :
    (s.setDevice d x).device e = s.device e ∨ (e = d ∧ (s.setDevice d x).device e = x) := by
  rcases eq_or_ne e d with rfl | other
  · rcases Nat.lt_or_ge e s.dev.length with present | absent
    · exact .inr ⟨rfl, device_setDevice_self _ _ present⟩
    · exact .inl (by rw [setDevice_of_length_le _ _ absent])
  · exact .inl (device_setDevice_ne _ _ (Ne.symm other))

theorem block_setBlock_cases (s : State) (b : Nat) (y : BlockState) (c : Nat) :
    (s.setBlock b y).block c = s.block c ∨ (c = b ∧ (s.setBlock b y).block c = y) := by
  rcases eq_or_ne c b with rfl | other
  · rcases Nat.lt_or_ge c s.blk.length with inRange | outside
    · exact .inr ⟨rfl, block_setBlock_self _ _ inRange⟩
    · exact .inl (by simp [State.setBlock, List.set_eq_of_length_le outside])
  · exact .inl (block_setBlock_ne _ _ (Ne.symm other))

namespace State.DataOk

/-- No part of it reads more than the configuration, the devices and the blocks. -/
theorem congr (h : s.DataOk) (cfg : t.cfg = s.cfg) (dev : t.dev = s.dev) (blk : t.blk = s.blk) : t.DataOk :=
  ⟨fun d => device_eq_of_dev dev d ▸ h.devices d, fun b inRange => (h.blocks b (cfg ▸ inRange)).of_eq cfg (block_eq_of_blk blk b) <|
    fun idle => idle.of_kept cfg fun d _ running => device_eq_of_dev dev d ▸ running⟩

/-! ## Writes of a device -/

/-- A write of a device that does not change its lifecycle. -/
theorem setDevice (h : s.DataOk) (ok : x.Ok) (st : x.st = (s.device d).st) : (s.setDevice d x).DataOk := by
  refine ⟨fun e => ?_, fun b inRange => (h.blocks b inRange).of_eq rfl rfl <|
    fun idle => idle.of_kept rfl fun e _ running => ?_⟩
  · rcases device_setDevice_cases s d x e with same | ⟨_, set⟩
    · rw [same]
      exact h.devices e
    · rw [set]
      exact ok
  · rcases device_setDevice_cases s d x e with same | ⟨rfl, set⟩
    · rw [same, running]
    · rw [set, st, running]

/-- A ring of a device out of UNINIT is written with a well-formed ring of its capacity. -/
theorem setRing (h : s.DataOk) (opened : (s.device ref.dev).st ≠ .uninit) (ok : r.Ok) (cap : r.cap = (s.ring ref).cap) :
    (s.setRing ref r).DataOk := by
  obtain ⟨rx, tx, _, capacity, enables⟩ := h.devices ref.dev
  refine h.setDevice ?_ (DevState.setRing_st ..)
  obtain ⟨d, sel⟩ := ref
  cases sel with
  | rx => exact ⟨ok, tx, fun uninit => absurd uninit opened, fun out => cap ▸ capacity out, enables⟩
  | tx => exact ⟨rx, ok, fun uninit => absurd uninit opened, capacity, enables⟩

theorem setRxIe (h : s.DataOk) (running : (s.device d).st = .running) (v : Bool) : (s.setRxIe d v).DataOk := by
  obtain ⟨rx, tx, unallocated, capacity, _⟩ := h.devices d
  exact h.setDevice ⟨rx, tx, unallocated, capacity, fun stopped => absurd running stopped⟩ rfl

theorem setTxIe (h : s.DataOk) (running : (s.device d).st = .running) (v : Bool) : (s.setTxIe d v).DataOk := by
  obtain ⟨rx, tx, unallocated, capacity, _⟩ := h.devices d
  exact h.setDevice ⟨rx, tx, unallocated, capacity, fun stopped => absurd running stopped⟩ rfl

/-! ## Writes of a controller -/

/-- The controller of a block with a RUNNING device is written within its sizes. -/
theorem setBlock (h : s.DataOk) (used : ¬ s.Idle b) (mbox : y.mbox.length ≤ s.cfg.mboxCount)
    (rxfifo : y.rxfifo.length ≤ s.cfg.rxFifoDepth) : (s.setBlock b y).DataOk := by
  refine ⟨h.devices, fun c inRange => ?_⟩
  rcases block_setBlock_cases s b y c with same | ⟨rfl, set⟩
  · exact (h.blocks c inRange).of_eq rfl same id
  · show State.BlockOk _ c
    rw [State.BlockOk, set]
    exact ⟨mbox, rxfifo, fun idle => absurd idle used⟩

/-- A step that writes one device and its block. -/
theorem of_own (h : s.DataOk) (cfg : t.cfg = s.cfg) (devices : s.OtherDevices t d) (own : (t.device d).Ok)
    (blocks : s.OtherBlocks t (s.blockOf d)) (block : t.BlockOk (s.blockOf d)) : t.DataOk := by
  refine ⟨fun e => ?_, fun c inRange => ?_⟩
  · rcases eq_or_ne e d with rfl | other
    · exact own
    · rw [devices e other]
      exact h.devices e
  · rcases eq_or_ne c (s.blockOf d) with rfl | other
    · exact block
    · refine (h.blocks c (cfg ▸ inRange)).of_eq cfg (blocks c other) <|
        fun idle => idle.of_kept cfg fun e ofBlock running => ?_
      rwa [devices e fun same => other (same ▸ ofBlock).symm]

end State.DataOk

/-! ## The lifecycle commands -/

theorem Ring.alloc_ok_of_rx {cap : Nat} (legal : cap ∈ Config.capSetRx) : (Ring.alloc cap).Ok :=
  Ring.alloc_ok (List.mem_cons_of_mem _ legal)

theorem State.BlockSet.active (h : s.BlockSet t b y) : t.active = s.active := by
  simpa using congrArg State.active h.frame

/-- What a successful `BEGIN` leaves of the two tables. -/
theorem startDevice_tables {v : State} {timing baud : Word} (device : d < s.dev.length) (set : s.BlockSet v b y) :
    (v.startDevice d timing baud).dev = s.dev.set d
      { s.device d with st := .running, rxIe := true, txIe := false, timing, baud, baudValid := true } ∧
    (v.startDevice d timing baud).blk = s.blk.set b y := by
  constructor
  · rw [startDevice_dev (set.dev ▸ device), set.dev, set.device]
  · exact (congrArg State.blk startDevice_frame).trans set.blk

section Lifecycle

variable (h : s.DataOk) (inRange : s.blockOf d < s.blk.length)

include h inRange

/-- `OPEN` (R192): the claimed device has its rings, and its controller stands. -/
theorem claimDevice_dataOk {rxCap txCap : Nat} (device : d < s.dev.length) (inConfig : s.blockOf d < s.cfg.numBlocks)
    (rx : rxCap ∈ Config.capSetRx) (tx : txCap ∈ Config.capSetTx) (uninit : (s.device d).st = .uninit) :
    (s.claimDevice d rxCap txCap).DataOk := by
  have claimed : (s.claimDevice d rxCap txCap).device d = _ := device_of_dev_set (s := s) rfl device
  have others : s.OtherDevices (s.claimDevice d rxCap txCap) d := otherDevices_of_dev_set rfl
  have entry : (s.claimDevice d rxCap txCap).block (s.blockOf d) = _ := block_of_blk_set rfl inRange
  refine h.of_own rfl others ?_ (otherBlocks_of_blk_set rfl) ?_
  · rw [claimed]
    exact ⟨Ring.alloc_ok_of_rx rx, Ring.alloc_ok tx, nofun, fun _ => rx, fun _ => ⟨rfl, rfl⟩⟩
  · obtain ⟨mbox, rxfifo, clear⟩ := h.blocks _ inConfig
    rw [State.BlockOk, entry]
    refine ⟨mbox, rxfifo, fun idle => clear (idle.of_kept rfl fun e _ running => ?_)⟩
    have other : e ≠ d := fun same => by simp [← same, running] at uninit
    rwa [others e other]

/-- `BEGIN` where the hardware fails (R193): the controller is in RESET and holds what it held. -/
theorem failedInit_dataOk {v : State} (inConfig : s.blockOf d < s.cfg.numBlocks)
    (set : s.BlockSet v (s.blockOf d) { s.block (s.blockOf d) with hwMode := .reset }) : v.DataOk := by
  obtain ⟨mbox, rxfifo, clear⟩ := h.blocks _ inConfig
  refine h.of_own set.cfg (fun e _ => set.device) (set.device ▸ h.devices d) (otherBlocks_of_blk_set set.blk) ?_
  rw [State.BlockOk, set.block inRange, set.cfg]
  refine ⟨mbox, rxfifo, fun idle => ?_⟩
  obtain ⟨noMbox, noFifo, _⟩ := clear (idle.of_kept set.cfg fun e _ running => set.device ▸ running)
  exact ⟨noMbox, noFifo, rfl⟩

/-- `BEGIN` of a CONFIGURED device (R193): the device is RUNNING and its controller empty. -/
theorem startDevice_dataOk {v : State} {timing baud : Word} (device : d < s.dev.length) (inConfig : d < s.cfg.numDev)
    (configured : (s.device d).st = .configured)
    (set : s.BlockSet v (s.blockOf d) { s.block (s.blockOf d) with hwMode := .normal, mbox := [], rxfifo := [] }) :
    (v.startDevice d timing baud).DataOk := by
  obtain ⟨dev, blk⟩ := startDevice_tables (timing := timing) (baud := baud) device set
  have started := device_of_dev_set dev device
  have cfg : (v.startDevice d timing baud).cfg = s.cfg := startDevice_cfg.trans set.cfg
  refine h.of_own cfg (otherDevices_of_dev_set dev) ?_ (otherBlocks_of_blk_set blk) ?_
  · obtain ⟨rx, tx, _, capacity, _⟩ := h.devices d
    rw [started]
    exact ⟨rx, tx, nofun, fun _ => capacity (by simp [configured]), fun stopped => absurd rfl stopped⟩
  · have used : ¬ (v.startDevice d timing baud).Idle (s.blockOf d) :=
      blockOf_eq_of_cfg cfg d ▸ State.not_idle (cfg ▸ inConfig) (by rw [started])
    rw [State.BlockOk, block_of_blk_set blk inRange]
    exact ⟨Nat.zero_le _, Nat.zero_le _, fun idle => absurd idle used⟩

/-- `SET_BAUDRATE` of a RUNNING device (R194): the controller changes its mode alone, the device its timing. -/
theorem reprogram_ends {timing : Word} (inConfig : d < s.cfg.numDev) (block : s.blockOf d < s.cfg.numBlocks)
    (running : (s.device d).st = .running) (baud : Word) :
    ∃ (v : State) (c : StatusCode) (l : List Word), s.reprogram d timing baud = v.finish c l ∧ v.DataOk ∧ v.active = s.active := by
  have mode {v : State} {m : HwMode} (set : s.BlockSet v (s.blockOf d) { s.block (s.blockOf d) with hwMode := m })
      (w u : Word) (valid : Bool) :
      (v.setDevice d { s.device d with timing := w, baud := u, baudValid := valid }).DataOk := by
    obtain ⟨mbox, rxfifo, _⟩ := h.blocks _ block
    have controller := h.setBlock (y := { s.block (s.blockOf d) with hwMode := m }) (State.not_idle inConfig running) mbox rxfifo
    exact (controller.congr set.cfg set.dev set.blk).setDevice (h.devices d) (by rw [set.device])
  rcases reprogram_cases timing baud inRange with ⟨_, v, set, e⟩ | ⟨_, v, m, _, set, lost, lost', e⟩
  · exact ⟨_, _, _, e, mode set .., set.active⟩
  · exact ⟨_, _, _, e, mode set .., set.active⟩

/-- `CLOSE` (R195): device and controller are as at reset. -/
theorem releaseDevice_dataOk (device : d < s.dev.length) : (s.releaseDevice d).DataOk := by
  refine h.of_own releaseDevice_cfg (otherDevices_of_dev_set (releaseDevice_dev device)) ?_
    (otherBlocks_of_blk_set (releaseDevice_blk inRange)) ?_
  · rw [device_of_dev_set (releaseDevice_dev device) device]
    exact DevState.reset_ok
  · rw [State.BlockOk, block_of_blk_set (releaseDevice_blk inRange) inRange]
    exact ⟨Nat.zero_le _, Nat.zero_le _, fun _ => ⟨rfl, rfl, rfl⟩⟩

end Lifecycle

end Machine
end Sys2Proof
end

section
/-!
SUPPORT. What an agent has read of a ring holds at its next step (spec/41_ring.md R117): the producer's steps leave what the
consumer relies on, and the consumer's what the producer relies on.
-/

namespace Sys2Proof
namespace Machine

variable {s t : State} {i : Instr} {p : Pos} {r q : Ring} {d h : Nat} {w : FrameWords}

/-- What the consumer of a ring relies on: its oldest frame stays. -/
structure Ring.KeepsConsumer (r q : Ring) : Prop where
  occupied : r.isEmpty = false → q.isEmpty = false
  tail : q.tail = r.tail

/-- What the producer of a ring relies on: its room stays, and what is written. -/
structure Ring.KeepsProducer (r q : Ring) : Prop where
  room : r.isFull = false → q.isFull = false
  head : q.head = r.head
  written : ∀ i, r.SlotWritten i → q.SlotWritten i

namespace Ring

theorem KeepsConsumer.refl (r : Ring) : r.KeepsConsumer r := ⟨id, rfl⟩

theorem KeepsProducer.refl (r : Ring) : r.KeepsProducer r := ⟨id, rfl, fun _ => id⟩

theorem store_keepsConsumer : r.KeepsConsumer (r.store h w) :=
  ⟨fun occupied => by simpa [isEmpty] using occupied, store_tail⟩

theorem Ok.publish_keepsConsumer (ok : r.Ok) (room : r.isFull = false) (filled : r.SlotWritten r.head) :
    r.KeepsConsumer (r.publish r.head) := by
  refine ⟨fun _ => ?_, rfl⟩
  have allocated := cap_ne_zero_of_not_full room
  have published := count_publish (ok.head_lt allocated) (ok.tail_lt allocated) room
  rw [Bool.eq_false_iff, ne_eq, (ok.publish room filled).isEmpty_iff_count, published]
  exact Nat.succ_ne_zero _

theorem Ok.advance_keepsProducer (ok : r.Ok) (occupied : r.isEmpty = false) : r.KeepsProducer (r.advance r.tail) := by
  refine ⟨fun _ => ?_, rfl, fun _ => id⟩
  have allocated := cap_ne_zero_of_not_empty occupied
  have advanced := ok.advance occupied
  have counted := count_advance (ok.head_lt allocated) (ok.tail_lt allocated) occupied
  have bound := count_lt (Nat.pos_of_ne_zero allocated)
  rw [Bool.eq_false_iff, ne_eq, isFull_iff_count (advanced.head_lt allocated) (advanced.tail_lt allocated)]
  show ¬ (r.advance r.tail).count = r.cap - 1
  omega

end Ring

/-! ## The views of `State.ViewOk` and `State.HandlerView` -/

/-- A view holds on while its rings keep what it rests on. -/
theorem State.ViewOk.of_keeps (view : s.ViewOk i p) (push : (s.ring i.pushRing).KeepsProducer (t.ring i.pushRing))
    (pop : (s.ring i.popRing).KeepsConsumer (t.ring i.popRing)) : t.ViewOk i p := by
  cases p with
  | pushFill h f =>
    obtain ⟨room, head⟩ := view
    exact ⟨push.room room, head.trans push.head.symm⟩
  | pushPublish h =>
    obtain ⟨room, head, written⟩ := view
    exact ⟨push.room room, head.trans push.head.symm, push.written _ written⟩
  | peekRead n | popAdvance n x =>
    obtain ⟨occupied, tail⟩ := view
    exact ⟨pop.occupied occupied, tail.trans pop.tail.symm⟩
  | _ => trivial

/-- A view reads the two rings alone. -/
theorem State.ViewOk.congr (view : s.ViewOk i p) (push : t.ring i.pushRing = s.ring i.pushRing)
    (pop : t.ring i.popRing = s.ring i.popRing) : t.ViewOk i p :=
  view.of_keeps (push ▸ .refl _) (pop ▸ .refl _)

theorem Instr.pushRing_of_command (command : i.format ≠ .irq) : i.pushRing = ⟨i.deviceOf, .tx⟩ := by
  cases i with
  | irqRx d => exact absurd rfl command
  | _ => rfl

theorem Instr.popRing_of_command (command : i.format ≠ .irq) : i.popRing = ⟨i.deviceOf, .rx⟩ := by
  cases i with
  | irqTx d => exact absurd rfl command
  | _ => rfl

/-- The ring a handler works on: the RX engine fills the receive ring, the TX engine empties the transmit ring (R100). -/
def Handler.ring (g : Handler) : RingRef :=
  match g.kind with
  | .rx => ⟨g.dev, .rx⟩
  | .tx => ⟨g.dev, .tx⟩

theorem Handler.ring_injective {g h : Handler} (same : g.ring = h.ring) : g = h := by
  obtain ⟨d, kind⟩ := g
  obtain ⟨e, kind'⟩ := h
  cases kind <;> cases kind' <;> cases same <;> rfl

/-- The view of a handler reads its ring, and the RX handler's its FIFO. -/
theorem State.HandlerView.congr {g : Handler} (view : s.HandlerView g p) (step : p.isStepOf g.instr = true)
    (ring : t.ring g.ring = s.ring g.ring)
    (fifo : g.kind = .rx → (s.block (s.blockOf g.dev)).rxfifo ≠ [] → (t.block (t.blockOf g.dev)).rxfifo ≠ []) :
    t.HandlerView g p := by
  obtain ⟨d, kind⟩ := g
  cases kind with
  | rx =>
    replace ring : t.ring ⟨d, .rx⟩ = s.ring ⟨d, .rx⟩ := ring
    have kept : s.ViewOk (.irqRx d) p → t.ViewOk (.irqRx d) p := fun view => view.congr ring ring
    cases p with
    | receive =>
      obtain ⟨frame, room⟩ := view
      exact ⟨fifo rfl frame, ring ▸ room⟩
    | pushCheck f => exact show (t.ring ⟨d, .rx⟩).isFull = false from ring ▸ view
    | backPressure | pushFill h f | pushPublish h | exit => exact kept view
    | _ => cases step
  | tx =>
    replace ring : t.ring ⟨d, .tx⟩ = s.ring ⟨d, .tx⟩ := ring
    have kept : s.ViewOk (.irqTx d) p → t.ViewOk (.irqTx d) p := fun view => view.congr ring ring
    cases p with
    | peekCheck => exact show (t.ring ⟨d, .tx⟩).isEmpty = false from ring ▸ view
    | loopTest | peekRead n | transmit f | popCheck x | popAdvance n x | exit => exact kept view
    | _ => cases step

end Machine
end Sys2Proof
end

section
/-!
SUPPORT. Every step of `APP` keeps the invariant's parts on devices, blocks and the command in progress (spec/20_memory.md R60(d):
no handler is active then): one lemma per shared step, then one per meaning of several steps.
-/

namespace Sys2Proof
namespace Machine

variable {s t u : State} {i : Instr} {p q : Pos} {d k n : Nat} {ref : RingRef} {f : Frame} {w : FrameWords} {c : StatusCode}
  {l : List Word} {x : Option Frame} {sel : RingSel}

/-! ## Ring writes -/

namespace State.DataOk

theorem ring_ok (h : s.DataOk) (ref : RingRef) : (s.ring ref).Ok := by
  obtain ⟨rx, tx, _⟩ := h.devices ref.dev
  rw [State.ring]
  cases ref.sel
  · exact rx
  · exact tx

section Write

variable (h : s.DataOk) (running : (s.device ref.dev).st = .running)

include h running

theorem store (room : (s.ring ref).isFull = false) (w : FrameWords) :
    (s.setRing ref ((s.ring ref).store (s.ring ref).head w)).DataOk :=
  h.setRing (by simp [running]) ((h.ring_ok ref).store ((h.ring_ok ref).head_lt (Ring.cap_ne_zero_of_not_full room))) Ring.store_cap

theorem publish (room : (s.ring ref).isFull = false) (filled : (s.ring ref).SlotWritten (s.ring ref).head) :
    (s.setRing ref ((s.ring ref).publish (s.ring ref).head)).DataOk :=
  h.setRing (by simp [running]) ((h.ring_ok ref).publish room filled) rfl

theorem advance (occupied : (s.ring ref).isEmpty = false) :
    (s.setRing ref ((s.ring ref).advance (s.ring ref).tail)).DataOk :=
  h.setRing (by simp [running]) ((h.ring_ok ref).advance occupied) rfl

end Write
/-- A transmit attempt that is not refused for want of room. -/
theorem loadMailbox {b : Nat} (h : s.DataOk) (used : ¬ s.Idle b) (inRange : b < s.cfg.numBlocks)
    (room : (s.block b).mbox.length < s.cfg.mboxCount) : (s.loadMailbox b f).DataOk := by
  obtain ⟨_, rxfifo, _⟩ := h.blocks b inRange
  exact h.setBlock used (by simpa using room) rxfifo

end State.DataOk

theorem Instr.Reads.unique {e : Nat} (h : Instr.Reads i d) (g : Instr.Reads i e) : e = d := by
  rcases h with rfl | rfl <;> rcases g with g | g <;> cases g <;> rfl

theorem State.Inv.blockOf_lt (h : s.Inv) (inConfig : d < s.cfg.numDev) : s.blockOf d < s.cfg.numBlocks := by
  obtain ⟨ranges, _, _⟩ := s.cfg.admitted_iff.1 h.admitted
  obtain ⟨_, _, _, _, _, _, _, _, _, _, _, _, _, descs⟩ := s.cfg.inRange_iff.1 ranges
  exact (descs d inConfig).1

/-! ## The command in progress -/

/-- The command is at a later step: what `State.CommandOk` and `State.MaskOk` ask of it. -/
structure State.CommandAt (s : State) (i : Instr) (p : Pos) : Prop where
  step : p.isStepOf i = true
  inConfig : i.deviceOf < s.cfg.numDev
  running : (s.device i.deviceOf).st = .running
  view : s.ViewOk i p
  masked : ∀ d, Instr.Reads i d → p ≠ .mask → (s.device d).rxIe = false

theorem State.CommandAt.congr (h : s.CommandAt i p) (cfg : t.cfg = s.cfg) (dev : t.dev = s.dev) : t.CommandAt i p :=
  ⟨h.step, cfg ▸ h.inConfig, device_eq_of_dev dev _ ▸ h.running, h.view.congr (ring_eq_of_dev dev _) (ring_eq_of_dev dev _),
    fun d reads past => device_eq_of_dev dev d ▸ h.masked d reads past⟩

theorem State.Inv.commandAt (h : s.Inv) (cur : s.cur = some p) (later : p ≠ .start) (word : decode s.cmd = .ok i) :
    s.CommandAt i p := by
  obtain ⟨step, inConfig, running, view⟩ := h.command_at cur later word
  refine ⟨step, inConfig, running, view, fun d reads past => (h.masked ?_ cur later past).1⟩
  rcases reads with rfl | rfl
  · exact .inl word
  · exact .inr word

/-- What a step of `APP` leaves: devices and blocks well formed, no handler, and the command ended, not begun, or at a step. -/
structure State.AppOk (s : State) : Prop where
  data : s.DataOk
  active : s.active = []
  command : s.cur = none ∨ s.cur = some .start ∨ ∃ i p, s.cur = some p ∧ decode s.cmd = .ok i ∧ s.CommandAt i p

namespace State.AppOk

theorem commandOk (h : s.AppOk) : s.CommandOk := by
  unfold State.CommandOk
  rcases h.command with cur | cur | ⟨i, p, cur, word, step, inConfig, running, view, _⟩ <;> rw [cur]
  · trivial
  · trivial
  · rw [word]
    split
    · trivial
    · trivial
    · rename_i later same
      cases same
      exact ⟨step, inConfig, running, view⟩

theorem maskOk (h : s.AppOk) : s.MaskOk := by
  intro d inConfig reading
  have inactive : s.isActive ⟨d, .rx⟩ = false := by simp [State.isActive, h.active]
  refine ⟨?_, inactive⟩
  unfold State.readingMasked at reading
  rcases h.command with cur | cur | ⟨i, p, cur, word, at'⟩ <;> rw [cur] at reading
  · cases reading
  · cases reading
  · split at reading
    case h_4 later past same =>
      cases same
      rw [word] at reading
      split at reading
      case h_1 same => exact at'.masked d (.inl (by cases same; rw [of_decide_eq_true reading])) past
      case h_2 same => exact at'.masked d (.inr (by cases same; rw [of_decide_eq_true reading])) past
      case h_3 => cases reading
    all_goals cases reading

theorem handlersOk (h : s.AppOk) : s.HandlersOk := by simp [State.HandlersOk, h.active]

theorem nestingOk (h : s.AppOk) : s.NestingOk := by simp [State.NestingOk, h.active]

/-- It reads neither the draws nor the status. -/
theorem congr (h : s.AppOk) (cfg : t.cfg = s.cfg) (dev : t.dev = s.dev) (blk : t.blk = s.blk) (active : t.active = s.active)
    (cur : t.cur = s.cur) (cmd : t.cmd = s.cmd) : t.AppOk := by
  refine ⟨h.data.congr cfg dev blk, active.trans h.active, ?_⟩
  rw [cur, cmd]
  rcases h.command with idle | start | ⟨i, p, at', word, next⟩
  · exact .inl idle
  · exact .inr (.inl start)
  · exact .inr (.inr ⟨i, p, at', word, next.congr cfg dev⟩)

/-! ## How a step ends -/

theorem finish (data : u.DataOk) (active : u.active = []) : (u.finish c l).AppOk := ⟨data.congr rfl rfl rfl, active, .inl rfl⟩

theorem goto (data : u.DataOk) (active : u.active = []) (word : decode u.cmd = .ok i) (next : u.CommandAt i p) :
    (u.goto .app p).AppOk := ⟨data.congr rfl rfl rfl, active, .inr (.inr ⟨i, p, rfl, word, next.congr rfl rfl⟩)⟩

protected theorem ite {c : Prop} [Decidable c] (h : t.AppOk) (g : u.AppOk) : (if c then t else u).AppOk := by
  split
  · exact h
  · exact g

theorem of_single (ok : u.AppOk) (e : single s u = .next t) : t.AppOk := (single_eq_next.1 e).2 ▸ ok

theorem whenRunning (ended : ∀ c, (s.finish c []).AppOk) (ok : s.cfg.hasDevice d = true → (s.device d).st = .running → u.AppOk) :
    (whenRunning d s u).AppOk := by
  rcases whenRunning_cases d s u with ⟨present, running, e⟩ | ⟨_, e⟩ | ⟨_, _, e⟩ <;> rw [e]
  · exact ok present running
  · exact ended _
  · exact ended _

theorem pre (ended : ∀ c, (s.finish c []).AppOk) (ok : u.AppOk) : (pre d k s u).AppOk :=
  whenRunning ended fun _ _ => .ite ok (ended _)

end State.AppOk

/-! ## The shared steps of the ring primitives, taken by `APP` -/

theorem st_setRing (s : State) (ref : RingRef) (r : Ring) (e : Nat) : ((s.setRing ref r).device e).st = (s.device e).st :=
  (congrArg DevState.st (device_setRing_rings (s := s) (ref := ref) (r := r) e) :)

theorem rxIe_setRing (s : State) (ref : RingRef) (r : Ring) (e : Nat) : ((s.setRing ref r).device e).rxIe = (s.device e).rxIe :=
  (congrArg DevState.rxIe (device_setRing_rings (s := s) (ref := ref) (r := r) e) :)

/-- The state before a step of command `i`: the invariant holds, no handler is active, and `CMD` holds the command. -/
structure State.AtCommand (s : State) (i : Instr) : Prop where
  inv : s.Inv
  free : s.active = []
  word : decode s.cmd = .ok i

namespace State.AtCommand

variable (run : s.AtCommand i)

include run

theorem at_cur (cur : s.cur = some p) (later : p ≠ .start) : s.CommandAt i p := run.inv.commandAt cur later run.word

theorem finish : (s.finish c l).AppOk := .finish run.inv.data run.free

/-- The first step of a command goes on once the checks pass. -/
theorem start (step : q.isStepOf i = true) (view : s.ViewOk i q) (mask : ∀ d, Instr.Reads i d → q = .mask)
    (present : s.cfg.hasDevice i.deviceOf = true) (running : (s.device i.deviceOf).st = .running) : (s.goto .app q).AppOk :=
  .goto run.inv.data run.free run.word
    ⟨step, Config.lt_of_hasDevice present, running, view, fun d reads past => absurd (mask d reads) past⟩

section Later

variable (at' : s.CommandAt i p) (past : p ≠ .mask)

include at' past

/-- A later step goes on to a step whose view is sound. -/
theorem goto (step : q.isStepOf i = true) (view : s.ViewOk i q) : (s.goto .app q).AppOk :=
  .goto run.inv.data run.free run.word ⟨step, at'.inConfig, at'.running, view, fun d reads _ => at'.masked d reads past⟩

/-- So does a step that writes a ring. -/
theorem setRing_goto {r : Ring} (data : (s.setRing ref r).DataOk) (step : q.isStepOf i = true)
    (view : (s.setRing ref r).ViewOk i q) : ((s.setRing ref r).goto .app q).AppOk :=
  .goto data run.free run.word ⟨step, at'.inConfig, (st_setRing s ref r _).trans at'.running, view,
    fun d reads _ => (rxIe_setRing s ref r d).trans (at'.masked d reads past)⟩

end Later

/-- The ring the command writes is one of its device, which is RUNNING. -/
theorem pushRing_running (at' : s.CommandAt i p) : (s.device i.pushRing.dev).st = .running :=
  Instr.pushRing_of_command (decode_ne_irq run.word) ▸ at'.running

theorem popRing_running (at' : s.CommandAt i p) : (s.device i.popRing.dev).st = .running :=
  Instr.popRing_of_command (decode_ne_irq run.word) ▸ at'.running

theorem pushCheck (at' : s.CommandAt i (.pushCheck f)) (full : Pos.isStepOf (.finishBool false) i = true)
    (fill : ∀ h, Pos.isStepOf (.pushFill h f) i = true) : (pushCheckStep .app i.pushRing f (.finishBool false) s).AppOk := by
  rw [pushCheckStep_eq]
  split
  case isTrue => exact run.goto at' nofun full trivial
  case isFalse room => exact run.goto at' nofun (fill _) ⟨by simpa using room, rfl⟩

theorem pushFill (at' : s.CommandAt i (.pushFill n f)) (publish : Pos.isStepOf (.pushPublish n) i = true) :
    (pushFillStep .app i.pushRing n f s).AppOk := by
  obtain ⟨room, rfl⟩ := at'.view
  have present : i.pushRing.dev < s.dev.length := by
    rw [Instr.pushRing_of_command (decode_ne_irq run.word), run.inv.sized.1]
    exact at'.inConfig
  rw [pushFillStep_store ((run.inv.ring_ok _).head_lt (Ring.cap_ne_zero_of_not_full room))]
  refine run.setRing_goto at' nofun (run.inv.data.store (run.pushRing_running at') room _) publish ?_
  simp only [State.ViewOk, ring_setRing_self _ _ present, Ring.store_isFull, Ring.store_head]
  exact ⟨room, trivial, Ring.slotWritten_store_self⟩

theorem pushPublish (at' : s.CommandAt i (.pushPublish n)) (last : Pos.isStepOf (.finishBool true) i = true) :
    (pushPublishStep .app i.pushRing n (.finishBool true) s).AppOk := by
  obtain ⟨room, rfl, filled⟩ := at'.view
  exact run.setRing_goto at' nofun (run.inv.data.publish (run.pushRing_running at') room filled) last trivial

theorem peekCheck (at' : s.CommandAt i .peekCheck) (empty : Pos.isStepOf (.finishFrame none) i = true)
    (read : ∀ n, Pos.isStepOf (.peekRead n) i = true) : (peekCheckStep .app i.popRing (.finishFrame none) s).AppOk := by
  rw [peekCheckStep_eq]
  split
  case isTrue => exact run.goto at' nofun empty trivial
  case isFalse occupied => exact run.goto at' nofun (read _) ⟨by simpa using occupied, rfl⟩

theorem peekRead {after : Frame → Pos} (at' : s.CommandAt i (.peekRead n)) (step : ∀ f, (after f).isStepOf i = true)
    (view : ∀ f, s.ViewOk i (after f)) : (peekReadStep .app i.popRing n after s).AppOk := by
  obtain ⟨occupied, rfl⟩ := at'.view
  obtain ⟨w, read⟩ := (run.inv.ring_ok i.popRing).readSlot_tail occupied
  rw [peekReadStep_ok read]
  exact run.goto at' nofun (step _) (view _)

theorem popCheck (at' : s.CommandAt i (.popCheck x)) (empty : q.isStepOf i = true) (view : s.ViewOk i q)
    (advance : ∀ n, Pos.isStepOf (.popAdvance n x) i = true) : (popCheckStep .app i.popRing x q s).AppOk := by
  rw [popCheckStep_eq]
  split
  case isTrue => exact run.goto at' nofun empty view
  case isFalse occupied => exact run.goto at' nofun (advance _) ⟨by simpa using occupied, rfl⟩

theorem popAdvance (at' : s.CommandAt i (.popAdvance n x)) (step : q.isStepOf i = true)
    (view : ∀ r, (s.setRing i.popRing r).ViewOk i q) : (popAdvanceStep .app i.popRing n q s).AppOk := by
  obtain ⟨occupied, rfl⟩ := at'.view
  exact run.setRing_goto at' nofun (run.inv.data.advance (run.popRing_running at') occupied) step (view _)

theorem whenRunning (ok : s.cfg.hasDevice d = true → (s.device d).st = .running → u.AppOk) : (whenRunning d s u).AppOk :=
  .whenRunning (fun _ => run.finish) ok

/-- The masking step of `PEEK` and `READ`. -/
theorem mask (reads : Instr.Reads i i.deviceOf) (at' : s.CommandAt i .mask) (step : Pos.isStepOf .peekCheck i = true) :
    ((s.setRxIe i.deviceOf false).goto .app .peekCheck).AppOk := by
  have present : i.deviceOf < s.dev.length := run.inv.sized.1 ▸ at'.inConfig
  have written : (s.setRxIe i.deviceOf false).device i.deviceOf = { s.device i.deviceOf with rxIe := false } :=
    device_setDevice_self _ _ present
  refine .goto (run.inv.data.setRxIe at'.running false) run.free run.word
    ⟨step, at'.inConfig, by rw [written]; exact at'.running, trivial, fun d reads' _ => ?_⟩
  rw [reads.unique reads', written]

/-- The last step of `PEEK` and `READ`. -/
theorem finishRead (at' : s.CommandAt i p) : (finishRead i.deviceOf x s).AppOk := by
  rw [finishRead_eq]
  exact .finish (run.inv.data.setRxIe at'.running true) run.free

end State.AtCommand

/-! ## Commands of several steps -/

/-- The direct send of `WRITE` loads a mailbox, or leaves all but the draws (R196). -/
theorem direct_appOk (run : s.AtCommand (.write d)) (at' : s.CommandAt (.write d) (.direct f)) (pos : s.pos = .direct f)
    (e : exec (.write d) s = .next t) : t.AppOk := by
  have inRange := run.inv.blockOf_lt at'.inConfig
  by_cases sends : s.Transmits (s.blockOf d)
  · obtain ⟨u, draws, sent⟩ := exec_write_direct_sent pos sends
    cases sent.symm.trans e
    obtain ⟨room, _⟩ := sends
    have loaded := run.inv.data.loadMailbox (f := f) (State.not_idle at'.inConfig at'.running) inRange room
    have next : s.CommandAt (.write d) .directDone :=
      ⟨rfl, at'.inConfig, at'.running, trivial, fun d reads _ => at'.masked d reads nofun⟩
    rcases draws with rfl | ⟨_, rfl⟩
    · exact .goto loaded run.free run.word (next.congr rfl rfl)
    · exact .goto (loaded.congr rfl rfl rfl) run.free run.word (next.congr rfl rfl)
  · obtain ⟨u, draws, failed⟩ := exec_write_direct_failed pos sends
    cases failed.symm.trans e
    have ok : (s.goto .app (if (s.ring ⟨d, .tx⟩).cap = 0 then .noQueue else .pushCheck f)).AppOk := by
      split <;> exact run.goto at' nofun rfl trivial
    rcases draws with rfl | rfl
    · exact ok
    · exact ok.congr rfl rfl rfl rfl rfl rfl

section Commands

variable (cur : s.cur = some p)

include cur

theorem execRbIsEmpty_appOk (run : s.AtCommand (.rbIsEmpty d sel)) (e : execRbIsEmpty d sel s = .next t) : t.AppOk := by
  rw [execRbIsEmpty, pos_of_cur cur] at e
  cases p <;> cases e
  case start => exact run.whenRunning <| run.start rfl trivial nofun
  case query => exact run.finish

theorem execRbIsFull_appOk (run : s.AtCommand (.rbIsFull d sel)) (e : execRbIsFull d sel s = .next t) : t.AppOk := by
  rw [execRbIsFull, pos_of_cur cur] at e
  cases p <;> cases e
  case start => exact run.whenRunning <| run.start rfl trivial nofun
  case query => exact run.finish

theorem execRbCount_appOk (run : s.AtCommand (.rbCount d sel)) (e : execRbCount d sel s = .next t) : t.AppOk := by
  rw [execRbCount, pos_of_cur cur] at e
  cases p <;> cases e
  case start => exact run.whenRunning <| run.start rfl trivial nofun
  case query => exact run.finish

theorem execRbPush_appOk (run : s.AtCommand (.rbPush d sel)) (e : execRbPush d sel s = .next t) : t.AppOk := by
  rw [execRbPush, pos_of_cur cur] at e
  have at' := run.at_cur cur
  cases p <;> cases e
  case start =>
    exact run.whenRunning fun present running =>
      .ite run.finish (.ite (run.start rfl trivial nofun present running) run.finish)
  case pushCheck f => exact run.pushCheck (at' nofun) rfl fun _ => rfl
  case pushFill n f => exact run.pushFill (at' nofun) rfl
  case pushPublish n => exact run.pushPublish (at' nofun) rfl
  case finishBool ok => exact run.finish

theorem execRbPeek_appOk (run : s.AtCommand (.rbPeek d sel)) (e : execRbPeek d sel s = .next t) : t.AppOk := by
  rw [execRbPeek, pos_of_cur cur] at e
  have at' := run.at_cur cur
  cases p
  case start =>
    cases e
    exact run.whenRunning fun present running => .ite run.finish (run.start rfl trivial nofun present running)
  case peekCheck =>
    cases e
    exact run.peekCheck (at' nofun) rfl fun _ => rfl
  case peekRead n =>
    cases e
    exact run.peekRead (at' nofun) (fun _ => rfl) fun _ => trivial
  case finishFrame x => cases x <;> cases e <;> exact run.finish
  all_goals cases e

theorem execRbPop_appOk (run : s.AtCommand (.rbPop d sel)) (e : execRbPop d sel s = .next t) : t.AppOk := by
  rw [execRbPop, pos_of_cur cur] at e
  have at' := run.at_cur cur
  cases p <;> cases e
  case start =>
    exact run.whenRunning fun present running => .ite run.finish (run.start rfl trivial nofun present running)
  case popCheck x => exact run.popCheck (at' nofun) rfl trivial fun _ => rfl
  case popAdvance n x => exact run.popAdvance (at' nofun) rfl fun _ => trivial
  case finishBool ok => exact run.finish

theorem execWrite_appOk (run : s.AtCommand (.write d)) (e : exec (.write d) s = .next t) : t.AppOk := by
  have pos := pos_of_cur cur
  have at' := run.at_cur cur
  have direct (f : Frame) (here : p = .direct f) : t.AppOk := by
    subst here
    exact direct_appOk run (at' nofun) pos e
  rw [exec, execWrite, pos] at e
  cases p
  case finishBool ok =>
    cases ok <;> cases e
    · exact run.finish
    · exact .finish (run.inv.data.setTxIe (at' nofun).running true) run.free
  all_goals cases e
  case start =>
    exact run.whenRunning fun present running => .ite (run.start rfl trivial nofun present running) run.finish
  case testEmpty f =>
    split <;> exact run.goto (at' nofun) nofun rfl trivial
  case direct f => exact direct f rfl
  case directDone => exact run.finish
  case noQueue => exact run.finish
  case pushCheck f => exact run.pushCheck (at' nofun) rfl fun _ => rfl
  case pushFill n f => exact run.pushFill (at' nofun) rfl
  case pushPublish n => exact run.pushPublish (at' nofun) rfl

theorem execPeek_appOk (run : s.AtCommand (.peek d)) (e : execPeek d s = .next t) : t.AppOk := by
  rw [execPeek, pos_of_cur cur] at e
  have at' := run.at_cur cur
  cases p <;> cases e
  case start => exact run.whenRunning <| run.start rfl trivial fun _ _ => rfl
  case mask => exact run.mask (.inl rfl) (at' nofun) rfl
  case peekCheck => exact run.peekCheck (at' nofun) rfl fun _ => rfl
  case peekRead n => exact run.peekRead (at' nofun) (fun _ => rfl) fun _ => trivial
  case finishFrame x => exact run.finishRead (at' nofun)

theorem execRead_appOk (run : s.AtCommand (.read d)) (e : execRead d s = .next t) : t.AppOk := by
  rw [execRead, pos_of_cur cur] at e
  have at' := run.at_cur cur
  cases p <;> cases e
  case start => exact run.whenRunning <| run.start rfl trivial fun _ _ => rfl
  case mask => exact run.mask (.inr rfl) (at' nofun) rfl
  case peekCheck => exact run.peekCheck (at' nofun) rfl fun _ => rfl
  case peekRead n => exact run.peekRead (at' nofun) (fun _ => rfl) fun _ => trivial
  case popCheck x => exact run.popCheck (at' nofun) rfl trivial fun _ => rfl
  case popAdvance n x => exact run.popAdvance (at' nofun) rfl fun _ => trivial
  case finishFrame x => exact run.finishRead (at' nofun)

end Commands

end Machine
end Sys2Proof
end

section
/-!
SUPPORT. Every step of `APP`, continued (spec/20_memory.md R60(d)): the commands of one step, the lifecycle commands, and the host's
accesses.
-/

namespace Sys2Proof
namespace Machine

variable {s t u : State} {i : Instr} {d k : Nat} {c : StatusCode} {l : List Word} {sel : RingSel}

theorem State.Inv.fits (h : s.Inv) : s.Fits := ⟨h.admitted, h.sized⟩

namespace State.AtCommand

variable (run : s.AtCommand i)

include run

/-- A command that leaves devices and blocks, the filter arrays or the draws aside. -/
theorem finish_of (cfg : u.cfg = s.cfg) (dev : u.dev = s.dev) (blk : u.blk = s.blk) (active : u.active = s.active) :
    (u.finish c l).AppOk := .finish (run.inv.data.congr cfg dev blk) (active.trans run.free)

theorem configure {a : Nat} {p m : Word} {md sc en : Bool} : ((s.configure a k p m md sc en).finish c l).AppOk :=
  run.finish_of rfl rfl rfl rfl

theorem programBank {p m : Word} {md sc en : Bool} : (programBank d k p m md sc en s).AppOk := run.configure

theorem setActive {a : Nat} {v : Bool} : ((s.setActive a k v).finish c l).AppOk := run.finish_of rfl rfl rfl rfl

theorem clearOwned : ((s.clearOwned d).finish c l).AppOk := run.finish_of rfl rfl rfl rfl

theorem afterDraw : (s.afterDraw.finish c l).AppOk := run.finish_of rfl rfl rfl rfl

theorem pre (ok : u.AppOk) : (pre d k s u).AppOk := .pre (fun _ => run.finish) ok

end State.AtCommand

/-! ## Commands of one step -/

theorem execFltAcceptAll_appOk (run : s.AtCommand (.fltAcceptAll d)) (e : execFltAcceptAll d s = .next t) : t.AppOk :=
  .of_single (run.whenRunning fun _ _ => .ite run.finish <| .ite run.finish run.configure) e

theorem execBtSolve_appOk (run : s.AtCommand .btSolve) (e : execBtSolve s = .next t) : t.AppOk := by
  refine .of_single ?_ e
  split <;> exact run.finish

/-! ## Lifecycle -/

theorem execDevOpen_appOk (run : s.AtCommand (.devOpen d)) (e : exec (.devOpen d) s = .next t) : t.AppOk := by
  obtain ⟨c, rfl⟩ | ⟨present, rx, tx, free, rfl⟩ := exec_devOpen_cases e
  · exact run.finish
  · obtain ⟨device, block⟩ := run.inv.fits.device_inRange present
    have inConfig := Config.lt_of_hasDevice present
    have uninit : (s.device d).st = .uninit := not_not.1 fun out => by
      obtain ⟨claimed, _⟩ := (run.inv.registry d inConfig).1 out
      simp [free] at claimed
    exact .finish (claimDevice_dataOk run.inv.data block device (run.inv.blockOf_lt inConfig) rx tx uninit) run.free

theorem execDevBegin_appOk (run : s.AtCommand (.devBegin d)) (e : exec (.devBegin d) s = .next t) : t.AppOk := by
  obtain ⟨c, rfl⟩ | ⟨present, configured, ⟨v, set, rfl⟩ | ⟨v, timing, set, rfl⟩⟩ := exec_devBegin_cases e
  · exact run.finish
  all_goals
    obtain ⟨device, block⟩ := run.inv.fits.device_inRange present
    have inConfig := Config.lt_of_hasDevice present
  · exact .finish (failedInit_dataOk run.inv.data block (run.inv.blockOf_lt inConfig) set) (set.active.trans run.free)
  · exact .finish (startDevice_dataOk run.inv.data block device inConfig configured set)
      ((congrArg State.active startDevice_frame).trans (set.active.trans run.free))

theorem execSetBaudrate_appOk (run : s.AtCommand (.setBaudrate d)) (e : execSetBaudrate d s = .next t) : t.AppOk := by
  refine .of_single (run.whenRunning fun present running => ?_) e
  have inConfig := Config.lt_of_hasDevice present
  split
  · exact run.finish
  · obtain ⟨_, block⟩ := run.inv.fits.device_inRange present
    obtain ⟨v, c, l, ends, data, active⟩ :=
      reprogram_ends run.inv.data block inConfig (run.inv.blockOf_lt inConfig) running (s.argWord 0)
    rw [ends]
    exact .finish data (active.trans run.free)

theorem execDevClose_appOk (run : s.AtCommand (.devClose d)) (e : exec (.devClose d) s = .next t) : t.AppOk := by
  obtain ⟨c, rfl⟩ | ⟨present, _, rfl⟩ := exec_devClose_cases e
  · exact run.finish
  · obtain ⟨device, block⟩ := run.inv.fits.device_inRange present
    exact .finish (releaseDevice_dataOk run.inv.data block device) ((congrArg State.active releaseDevice_frame).trans run.free)

/-! ## Every command -/

theorem exec_appOk (run : s.AtCommand i) (busy : s.cur ≠ none) (e : exec i s = .next t) : t.AppOk := by
  obtain ⟨p, cur⟩ := Option.ne_none_iff_exists'.1 busy
  cases i with
  | rbIsEmpty d ring => exact execRbIsEmpty_appOk cur run e
  | rbIsFull d ring => exact execRbIsFull_appOk cur run e
  | rbCount d ring => exact execRbCount_appOk cur run e
  | rbPush d ring => exact execRbPush_appOk cur run e
  | rbPeek d ring => exact execRbPeek_appOk cur run e
  | rbPop d ring => exact execRbPop_appOk cur run e
  | btSolve => exact execBtSolve_appOk run e
  | fltConfigure d k => exact .of_single (run.pre <| .ite run.finish run.programBank) e
  | fltMask32Std d k => exact .of_single (run.pre <| .ite run.programBank run.finish) e
  | fltMask32Ext d k => exact .of_single (run.pre <| .ite run.programBank run.finish) e
  | fltList32Std d k => exact .of_single (run.pre <| .ite (.ite run.finish run.programBank) run.finish) e
  | fltList32Ext d k => exact .of_single (run.pre <| .ite (.ite run.finish run.programBank) run.finish) e
  | fltMask16 d k => exact .of_single (run.pre <| .ite run.programBank run.finish) e
  | fltList16 d k => exact .of_single (run.pre <| .ite (.ite run.finish run.programBank) run.finish) e
  | fltAcceptAll d => exact execFltAcceptAll_appOk run e
  | fltEnable d k => exact .of_single (run.pre <| .ite run.setActive run.finish) e
  | fltDisable d k => exact .of_single (run.pre run.setActive) e
  | fltClearAll d => exact .of_single (run.whenRunning fun _ _ => run.clearOwned) e
  | fltRead d k => exact .of_single (run.pre run.finish) e
  | devOpen d => exact execDevOpen_appOk run e
  | devBegin d => exact execDevBegin_appOk run e
  | setBaudrate d => exact execSetBaudrate_appOk run e
  | devClose d => exact execDevClose_appOk run e
  | write d => exact execWrite_appOk cur run e
  | availableForWrite d => exact .of_single (run.whenRunning fun _ _ => run.finish) e
  | available d => exact .of_single (run.whenRunning fun _ _ => run.finish) e
  | peek d => exact execPeek_appOk cur run e
  | read d => exact execRead_appOk cur run e
  | getError d => exact .of_single (run.whenRunning fun _ _ => run.afterDraw) e
  | irqRx d => exact absurd rfl (decode_ne_irq run.word)
  | irqTx d => exact absurd rfl (decode_ne_irq run.word)

/-! ## The host, and the events of `APP` -/

/-- With no handler active the invariant gives what a step of `APP` has to leave. -/
theorem State.Inv.appOk (h : s.Inv) (free : s.active = []) : s.AppOk := by
  refine ⟨h.data, free, ?_⟩
  cases cur : s.cur with
  | none => exact .inl rfl
  | some p =>
    by_cases start : p = .start
    · exact .inr (.inl (congrArg _ start))
    · cases word : decode s.cmd with
      | ok i => exact .inr (.inr ⟨i, p, rfl, rfl, h.commandAt cur start word⟩)
      | error _ =>
        have ok := h.command
        simp only [State.CommandOk, cur, word] at ok

theorem hostStep_appOk (h : s.Inv) (free : s.active = []) (e : hostStep s = .next t) : t.AppOk := by
  have ok := h.appOk free
  unfold hostStep at e
  split at e
  · cases e
    exact ok
  · rename_i access rest _
    rcases portAccess_cases access { s with host := rest } with p | p | ⟨u, _, stored, p⟩ | ⟨v, _, _, p⟩ <;>
      cases p.symm.trans e
    · exact ok.congr (by simp) (by simp) (by simp) (by simp) (by simp) (by simp)
    · rcases portWrite_cases { s with host := rest } (access.addr - s.cfg.canqBase) access.value with
        w | ⟨_, _, w⟩ | ⟨_, _, _, w⟩ <;> cases w.symm.trans stored
      · exact ⟨h.data.congr rfl rfl rfl, free, .inr (.inl rfl)⟩
      · exact ok.congr rfl rfl rfl rfl rfl rfl
    · exact ok.congr rfl rfl rfl rfl rfl rfl
  · cases e
    exact ok.congr rfl rfl rfl rfl rfl rfl

theorem commandStep_appOk (h : s.Inv) (free : s.active = []) (busy : s.cur ≠ none) (e : commandStep s = .next t) : t.AppOk := by
  unfold commandStep at e
  split at e
  · exact exec_appOk ⟨h, free, ‹_›⟩ busy e
  · cases e
    exact .finish h.data free

end Machine
end Sys2Proof
end

section
/-!
SUPPORT. Every step of an engine handler keeps the invariant's parts on devices, blocks, the command in progress, the handlers and
their nesting (spec/45_irq.md R231 to R234): what the step may touch of what others rely on, then one lemma per handler.
-/

namespace Sys2Proof
namespace Machine

variable {s t u : State} {g : Handler} {p q : Pos} {d n : Nat} {r : Ring} {f : Frame} {x : Option Frame}

/-! ## The rings of the handlers -/

theorem ring_setRing_cases (s : State) (a : RingRef) (r : Ring) (b : RingRef) :
    (s.setRing a r).ring b = s.ring b ∨ (b = a ∧ (s.setRing a r).ring b = r) := by
  rcases eq_or_ne b a with rfl | other
  · rcases Nat.lt_or_ge b.dev s.dev.length with present | absent
    · exact .inr ⟨rfl, ring_setRing_self _ _ present⟩
    · exact .inl (by rw [State.setRing, setDevice_of_length_le _ _ absent])
  · exact .inl (ring_setRing_ne _ _ (Ne.symm other))

theorem Handler.kind_of_ring_rx (own : g.ring = ⟨d, .rx⟩) : g.kind = .rx := by
  obtain ⟨e, kind⟩ := g
  cases kind
  · rfl
  · cases own

theorem Handler.kind_of_ring_tx (own : g.ring = ⟨d, .tx⟩) : g.kind = .tx := by
  obtain ⟨e, kind⟩ := g
  cases kind
  · cases own
  · rfl

/-! ## What an engine's step leaves to the others -/

/-- The command in progress rests on its device's lifecycle, the consumer's side of its receive ring and the producer's side of
its transmit ring. -/
theorem State.CommandOk.of_keeps (ok : s.CommandOk) (cfg : t.cfg = s.cfg) (cmd : t.cmd = s.cmd) (cur : t.cur = s.cur)
    (st : ∀ e, (t.device e).st = (s.device e).st) (consumer : ∀ e, (s.ring ⟨e, .rx⟩).KeepsConsumer (t.ring ⟨e, .rx⟩))
    (producer : ∀ e, (s.ring ⟨e, .tx⟩).KeepsProducer (t.ring ⟨e, .tx⟩)) : t.CommandOk := by
  unfold State.CommandOk at ok ⊢
  rw [cur, cmd]
  split at ok
  · trivial
  · trivial
  · split at ok
    · rename_i i word
      obtain ⟨step, inConfig, running, view⟩ := ok
      refine ⟨step, cfg ▸ inConfig, (st _).trans running, view.of_keeps ?_ ?_⟩
      · rw [Instr.pushRing_of_command (decode_ne_irq word)]
        exact producer _
      · rw [Instr.popRing_of_command (decode_ne_irq word)]
        exact consumer _
    · exact ok

/-- A step of handler `g` leaves the command, the lifecycle, the rings of other handlers and the FIFOs of other blocks; it
disarms an RX interrupt at most; and `APP` finds its side of every ring as it left it. -/
structure State.EngineFrame (s t : State) (g : Handler) : Prop where
  cfg : t.cfg = s.cfg
  cmd : t.cmd = s.cmd
  cur : t.cur = s.cur
  st : ∀ e, (t.device e).st = (s.device e).st
  rxIe : ∀ e, (s.device e).rxIe = false → (t.device e).rxIe = false
  ring : ∀ h : Handler, h ≠ g → t.ring h.ring = s.ring h.ring
  consumer : ∀ e, (s.ring ⟨e, .rx⟩).KeepsConsumer (t.ring ⟨e, .rx⟩)
  producer : ∀ e, (s.ring ⟨e, .tx⟩).KeepsProducer (t.ring ⟨e, .tx⟩)
  fifo : ∀ b, (t.block b).rxfifo = (s.block b).rxfifo ∨ (g.kind = .rx ∧ b = s.blockOf g.dev)

namespace State.EngineFrame

/-- A step that leaves the devices, and every FIFO but its own. -/
theorem of_dev (cfg : t.cfg = s.cfg) (cmd : t.cmd = s.cmd) (cur : t.cur = s.cur) (dev : t.dev = s.dev)
    (fifo : ∀ b, (t.block b).rxfifo = (s.block b).rxfifo ∨ (g.kind = .rx ∧ b = s.blockOf g.dev)) : s.EngineFrame t g where
  cfg := cfg
  cmd := cmd
  cur := cur
  st e := by rw [device_eq_of_dev dev]
  rxIe e := by rw [device_eq_of_dev dev]; exact id
  ring h _ := ring_eq_of_dev dev _
  consumer e := ring_eq_of_dev dev ⟨e, .rx⟩ ▸ .refl _
  producer e := ring_eq_of_dev dev ⟨e, .tx⟩ ▸ .refl _
  fifo := fifo

theorem refl (s : State) (g : Handler) : s.EngineFrame s g := .of_dev rfl rfl rfl rfl fun _ => .inl rfl

/-- A write of a device that leaves its lifecycle and its rings, and arms no RX interrupt. -/
theorem setDevice {y : DevState} (st : y.st = (s.device d).st) (rings : ∀ sel, y.ring sel = (s.device d).ring sel)
    (rxIe : (s.device d).rxIe = false → y.rxIe = false) : s.EngineFrame (s.setDevice d y) g where
  cfg := rfl
  cmd := rfl
  cur := rfl
  st e := by
    rcases device_setDevice_cases s d y e with same | ⟨rfl, set⟩
    · rw [same]
    · rw [set, st]
  rxIe e := by
    rcases device_setDevice_cases s d y e with same | ⟨rfl, set⟩
    · rw [same]; exact id
    · rw [set]; exact rxIe
  ring h _ := ring_setDevice s rings _
  consumer e := ring_setDevice s rings ⟨e, .rx⟩ ▸ .refl _
  producer e := ring_setDevice s rings ⟨e, .tx⟩ ▸ .refl _
  fifo _ := .inl rfl

/-- A handler writes its ring as the other side of it allows. -/
theorem setRing (consumer : g.kind = .rx → (s.ring g.ring).KeepsConsumer r)
    (producer : g.kind = .tx → (s.ring g.ring).KeepsProducer r) : s.EngineFrame (s.setRing g.ring r) g where
  cfg := rfl
  cmd := rfl
  cur := rfl
  st := st_setRing s g.ring r
  rxIe e := by rw [rxIe_setRing]; exact id
  ring h other := ring_setRing_ne _ _ fun same => other (Handler.ring_injective same.symm)
  consumer e := by
    rcases ring_setRing_cases s g.ring r ⟨e, .rx⟩ with same | ⟨own, set⟩
    · rw [same]
      exact .refl _
    · rw [set, own]
      exact consumer (Handler.kind_of_ring_rx own.symm)
  producer e := by
    rcases ring_setRing_cases s g.ring r ⟨e, .tx⟩ with same | ⟨own, set⟩
    · rw [same]
      exact .refl _
    · rw [set, own]
      exact producer (Handler.kind_of_ring_tx own.symm)
  fifo _ := .inl rfl

/-- What follows may move the handlers. -/
theorem congr (h : s.EngineFrame t g) (cfg : u.cfg = t.cfg) (cmd : u.cmd = t.cmd) (cur : u.cur = t.cur) (dev : u.dev = t.dev)
    (blk : u.blk = t.blk) : s.EngineFrame u g where
  cfg := cfg.trans h.cfg
  cmd := cmd.trans h.cmd
  cur := cur.trans h.cur
  st e := by rw [device_eq_of_dev dev, h.st]
  rxIe e := by rw [device_eq_of_dev dev]; exact h.rxIe e
  ring k other := by rw [ring_eq_of_dev dev, h.ring k other]
  consumer e := by rw [ring_eq_of_dev dev]; exact h.consumer e
  producer e := by rw [ring_eq_of_dev dev]; exact h.producer e
  fifo b := by rw [block_eq_of_blk blk]; exact h.fifo b

/-! ### What the frame gives -/

/-- The command in progress finds its device and its views as it left them. -/
theorem commandOk (frame : s.EngineFrame t g) (ok : s.CommandOk) : t.CommandOk :=
  ok.of_keeps frame.cfg frame.cmd frame.cur frame.st frame.consumer frame.producer

theorem readingMasked (frame : s.EngineFrame t g) (d : Nat) : t.readingMasked d = s.readingMasked d := by
  rw [State.readingMasked, State.readingMasked, frame.cur, frame.cmd]

/-- Another handler in progress keeps its view: an RX handler of another device works on another block. -/
theorem handlerView (frame : s.EngineFrame t g) (registry : s.RegistryOk) {h : Handler} (other : h ≠ g)
    (inConfig : h.dev < s.cfg.numDev) (inConfig' : g.dev < s.cfg.numDev) (running : (s.device h.dev).st = .running)
    (running' : (s.device g.dev).st = .running) (step : p.isStepOf h.instr = true) (view : s.HandlerView h p) :
    t.HandlerView h p := by
  refine view.congr step (frame.ring h other) fun rx frames => ?_
  rw [blockOf_eq_of_cfg frame.cfg]
  rcases frame.fifo (s.blockOf h.dev) with same | ⟨rx', block⟩
  · rwa [same]
  · have same := registry.unique inConfig inConfig' block (by simp [running]) (by simp [running'])
    obtain ⟨e, kind⟩ := h
    obtain ⟨d, kind'⟩ := g
    subst rx rx' same
    exact absurd rfl other

end State.EngineFrame

end Machine
end Sys2Proof
end

section
/-!
SUPPORT. The engine handlers (spec/45_irq.md R231 to R234), continued: what each step of a handler leaves, and that it keeps the
invariant's parts on the handlers, their nesting and the masked window.
-/

namespace Sys2Proof
namespace Machine

variable {s t u : State} {g : Handler} {p q : Pos} {d n : Nat} {r : Ring} {f : Frame} {x : Option Frame}

/-! ## A handler in progress -/

/-- Handler `g` is at a step: what `State.HandlersOk` asks of its record. -/
structure State.HandlerAt (s : State) (g : Handler) (p : Pos) : Prop where
  step : p.isStepOf g.instr = true
  inConfig : g.dev < s.cfg.numDev
  running : (s.device g.dev).st = .running
  view : s.HandlerView g p

theorem State.Inv.handlerAt (h : s.Inv) (pos : s.handlerPos g = some p) : s.HandlerAt g p := by
  obtain ⟨r, found, rfl⟩ := Option.map_eq_some_iff.1 pos
  obtain ⟨step, inConfig, running, view⟩ := h.handlers r (List.mem_of_find?_eq_some found)
  have handler : r.handler = g := by simpa using List.find?_some found
  subst handler
  exact ⟨step, inConfig, running, view⟩

theorem isActive_iff_mem (s : State) (g : Handler) : s.isActive g = true ↔ g ∈ s.active.map Running.handler := by
  simp [State.isActive]

theorem nestingOk_iff (s : State) :
    s.NestingOk ↔ (s.active.map Running.handler).Pairwise fun x y => s.prio y < s.prio x := by
  rw [State.NestingOk, List.pairwise_map]

/-- What a step of handler `g` leaves. -/
structure State.EngineOk (s t : State) (g : Handler) : Prop where
  data : t.DataOk
  frame : s.EngineFrame t g
  inConfig : g.dev < s.cfg.numDev
  running : (s.device g.dev).st = .running
  records : ∀ r ∈ t.active, (r ∈ s.active ∧ r.handler ≠ g) ∨
    (r.handler = g ∧ r.pos.isStepOf g.instr = true ∧ t.HandlerView g r.pos)
  nesting : t.NestingOk
  entered : ∀ d, t.isActive ⟨d, .rx⟩ = true → s.isActive ⟨d, .rx⟩ = true ∨ (s.device d).rxIe = true

namespace State.EngineOk

theorem handlersOk (h : s.EngineOk t g) (inv : s.Inv) : t.HandlersOk := by
  intro r present
  obtain ⟨old, other⟩ | ⟨own, step, view⟩ := h.records r present
  · obtain ⟨step, inConfig, running, view⟩ := inv.handlers r old
    exact ⟨step, h.frame.cfg ▸ inConfig, (h.frame.st _).trans running,
      h.frame.handlerView inv.registry other inConfig h.inConfig running h.running step view⟩
  · rw [own]
    exact ⟨step, h.frame.cfg ▸ h.inConfig, (h.frame.st _).trans h.running, view⟩

theorem maskOk (h : s.EngineOk t g) (inv : s.Inv) : t.MaskOk := by
  intro d inConfig reading
  obtain ⟨masked, inactive⟩ := inv.mask d (h.frame.cfg ▸ inConfig) (h.frame.readingMasked d ▸ reading)
  refine ⟨h.frame.rxIe d masked, Bool.eq_false_iff.2 fun active => ?_⟩
  rcases h.entered d active with old | armed
  · simp [inactive] at old
  · simp [masked] at armed

/-- A later step of a handler enters none. -/
theorem of_later (inv : s.Inv) (at' : s.HandlerAt g p) (data : t.DataOk) (frame : s.EngineFrame t g)
    (order : (t.active.map Running.handler).Sublist (s.active.map Running.handler))
    (records : ∀ r ∈ t.active, (r ∈ s.active ∧ r.handler ≠ g) ∨
      (r.handler = g ∧ r.pos.isStepOf g.instr = true ∧ t.HandlerView g r.pos)) : s.EngineOk t g := by
  refine ⟨data, frame, at'.inConfig, at'.running, records, ?_, fun d active => ?_⟩
  · rw [nestingOk_iff]
    simp only [prio_eq_of_cfg frame.cfg]
    exact ((nestingOk_iff s).1 inv.nesting).sublist order
  · rw [isActive_iff_mem] at active ⊢
    exact .inl (order.subset active)

/-- The handler goes on to a step whose view is sound. -/
theorem goto (inv : s.Inv) (at' : s.HandlerAt g p) (data : u.DataOk) (frame : s.EngineFrame u g) (active : u.active = s.active)
    (step : q.isStepOf g.instr = true) (view : u.HandlerView g q) : s.EngineOk (u.goto (.engine g) q) g := by
  refine .of_later inv at' (data.congr rfl rfl rfl) (frame.congr rfl rfl rfl rfl rfl) ?_ fun r present => ?_
  · have same : (u.goto (.engine g) q).active.map Running.handler = s.active.map Running.handler := by
      show (u.active.map _).map _ = _
      rw [active, List.map_map]
      refine List.map_congr_left fun r _ => ?_
      show (if r.handler = g then { r with pos := q } else r).handler = r.handler
      split <;> rfl
    rw [same]
  · obtain ⟨r₀, old, rfl⟩ := List.mem_map.1 present
    split
    case isTrue own => exact .inr ⟨own, step, view.congr step goto_ring fun _ => id⟩
    case isFalse other => exact .inl ⟨active ▸ old, other⟩

/-- The handler leaves. -/
theorem exit (inv : s.Inv) (at' : s.HandlerAt g p) (data : u.DataOk) (frame : s.EngineFrame u g) (active : u.active = s.active) :
    s.EngineOk (u.exitHandler g) g := by
  refine .of_later inv at' (data.congr rfl rfl rfl) (frame.congr rfl rfl rfl rfl rfl) ?_ fun r present => ?_
  · exact active ▸ List.filter_sublist.map _
  · obtain ⟨old, other⟩ := List.mem_filter.1 present
    exact .inl ⟨active ▸ old, of_decide_eq_true other⟩

end State.EngineOk

theorem goto_engineOk (inv : s.Inv) (at' : s.HandlerAt g p) (step : q.isStepOf g.instr = true) (view : s.HandlerView g q) :
    s.EngineOk (s.goto (.engine g) q) g := .goto inv at' inv.data (.refl s g) rfl step view

/-! ## `IRQ_RX` (R232) -/

theorem popFifo_dataOk {b : Nat} (h : s.DataOk) (used : ¬ s.Idle b) (inRange : b < s.cfg.numBlocks) : (s.popFifo b).DataOk := by
  obtain ⟨mbox, rxfifo, _⟩ := h.blocks b inRange
  exact h.setBlock used mbox (by simp; omega)

theorem rxfifo_popFifo (s : State) (b c : Nat) : ((s.popFifo b).block c).rxfifo = (s.block c).rxfifo ∨ c = b :=
  (block_setBlock_cases s b _ c).imp (congrArg BlockState.rxfifo) And.left

theorem execIrqRx_engineOk (inv : s.Inv) (pos : s.handlerPos ⟨d, .rx⟩ = some p) (e : execIrqRx d s = .next t) :
    s.EngineOk t ⟨d, .rx⟩ := by
  have at' := inv.handlerAt pos
  obtain ⟨step, inConfig, running, view⟩ := inv.handlerAt pos
  have present : d < s.dev.length := inv.sized.1 ▸ inConfig
  simp only [execIrqRx, pos] at e
  cases p
  case backPressure =>
    cases e
    exact .exit inv at' (inv.data.setRxIe running false) (.setDevice rfl (fun sel => by cases sel <;> rfl) fun _ => rfl) rfl
  case receive =>
    obtain ⟨frames, room⟩ := view
    obtain ⟨f, rest, fifo⟩ := List.exists_cons_of_ne_nil frames
    simp only [fifo] at e
    cases e
    have data := popFifo_dataOk inv.data (State.not_idle inConfig running) (inv.blockOf_lt inConfig)
    exact .goto inv at' data
      (.of_dev rfl rfl rfl rfl fun b => (rxfifo_popFifo s _ b).imp_right fun own => ⟨rfl, own⟩) rfl rfl room
  case pushCheck f =>
    cases e
    rw [pushCheckStep_eq, if_neg (Bool.eq_false_iff.1 view)]
    exact goto_engineOk inv at' rfl ⟨view, rfl⟩
  case pushFill n f =>
    cases e
    obtain ⟨room, rfl⟩ : (s.ring ⟨d, .rx⟩).isFull = false ∧ n = (s.ring ⟨d, .rx⟩).head := view
    rw [pushFillStep_store ((inv.ring_ok _).head_lt (Ring.cap_ne_zero_of_not_full room))]
    refine .goto inv at' (inv.data.store running room _) (.setRing (g := ⟨d, .rx⟩) (fun _ => Ring.store_keepsConsumer) nofun) rfl
      rfl ?_
    simp only [State.HandlerView, Handler.instr, State.ViewOk, Instr.pushRing,
      ring_setRing_self (ref := ⟨d, .rx⟩) _ _ present, Ring.store_isFull, Ring.store_head]
    exact ⟨room, trivial, Ring.slotWritten_store_self⟩
  case pushPublish n =>
    cases e
    obtain ⟨room, rfl, filled⟩ :
      (s.ring ⟨d, .rx⟩).isFull = false ∧ n = (s.ring ⟨d, .rx⟩).head ∧ (s.ring ⟨d, .rx⟩).SlotWritten n := view
    exact .goto inv at' (inv.data.publish running room filled)
      (.setRing (g := ⟨d, .rx⟩) (fun _ => (inv.ring_ok _).publish_keepsConsumer room filled) nofun) rfl rfl trivial
  case exit =>
    cases e
    exact .exit inv at' inv.data (.refl ..) rfl
  all_goals cases step

/-! ## `IRQ_TX` (R233) -/

theorem rxfifo_loadMailbox (s : State) (b c : Nat) (f : Frame) : ((s.loadMailbox b f).block c).rxfifo = (s.block c).rxfifo := by
  rcases block_setBlock_cases s b { s.block b with mbox := (s.block b).mbox ++ [f] } c with same | ⟨rfl, set⟩
  · exact congrArg BlockState.rxfifo same
  · exact (congrArg BlockState.rxfifo set :)

theorem execIrqTx_engineOk (inv : s.Inv) (pos : s.handlerPos ⟨d, .tx⟩ = some p) (e : execIrqTx d s = .next t) :
    s.EngineOk t ⟨d, .tx⟩ := by
  have at' := inv.handlerAt pos
  obtain ⟨step, inConfig, running, view⟩ := inv.handlerAt pos
  simp only [execIrqTx, pos] at e
  cases p
  case loopTest =>
    cases e
    split
    case isTrue => exact goto_engineOk inv at' rfl trivial
    case isFalse occupied => exact goto_engineOk inv at' rfl (Bool.eq_false_iff.2 occupied)
  case peekCheck =>
    cases e
    rw [if_neg (Bool.eq_false_iff.1 view)]
    exact goto_engineOk inv at' rfl ⟨view, rfl⟩
  case peekRead n =>
    cases e
    obtain ⟨occupied, rfl⟩ : (s.ring ⟨d, .tx⟩).isEmpty = false ∧ n = (s.ring ⟨d, .tx⟩).tail := view
    obtain ⟨w, read⟩ := (inv.ring_ok _).readSlot_tail occupied
    rw [peekReadStep_ok read]
    exact goto_engineOk inv at' rfl trivial
  case transmit f =>
    cases e
    have used := State.not_idle inConfig running
    have kept (b : Nat) := rxfifo_loadMailbox s (s.blockOf d) b f
    have loaded (free : s.canTransmit (s.blockOf d) = true) : (s.loadMailbox (s.blockOf d) f).DataOk :=
      inv.data.loadMailbox used (inv.blockOf_lt inConfig) (by simp [State.canTransmit] at free; exact free.1)
    rcases hwTransmit_cases s (s.blockOf d) f with ⟨free, _, h⟩ | ⟨free, _, _, h⟩ | ⟨_, _, _, h⟩ | ⟨_, h⟩ <;> rw [h]
    · exact .goto inv at' (loaded free) (.of_dev rfl rfl rfl rfl fun b => .inl (kept b)) rfl rfl trivial
    · exact .goto inv at' ((loaded free).congr rfl rfl rfl) (.of_dev rfl rfl rfl rfl fun b => .inl (kept b)) rfl rfl trivial
    · exact .goto inv at' (inv.data.congr rfl rfl rfl) (.of_dev rfl rfl rfl rfl fun _ => .inl rfl) rfl rfl trivial
    · exact goto_engineOk inv at' rfl trivial
  case popCheck x =>
    cases e
    rw [popCheckStep_eq]
    split
    case isTrue => exact goto_engineOk inv at' rfl trivial
    case isFalse occupied => exact goto_engineOk inv at' rfl ⟨Bool.eq_false_iff.2 occupied, rfl⟩
  case popAdvance n x =>
    cases e
    obtain ⟨occupied, rfl⟩ : (s.ring ⟨d, .tx⟩).isEmpty = false ∧ n = (s.ring ⟨d, .tx⟩).tail := view
    exact .goto inv at' (inv.data.advance running occupied)
      (.setRing (g := ⟨d, .tx⟩) nofun fun _ => (inv.ring_ok _).advance_keepsProducer occupied) rfl rfl trivial
  case exit =>
    cases e
    split
    · exact .exit inv at' (inv.data.setTxIe running false) (.setDevice rfl (fun sel => by cases sel <;> rfl) id) rfl
    · exact .exit inv at' inv.data (.refl ..) rfl
  all_goals cases step

end Machine
end Sys2Proof
end

section
/-!
SUPPORT. Handler entry and the steps of `BUS[b]` (spec/45_irq.md R231, R240, R241), and what every event of the machine leaves of
devices, blocks, the command in progress, the handlers and the masked window.
-/

namespace Sys2Proof
namespace Machine

variable {s t u : State} {g : Handler} {p : Pos} {b d : Nat} {f : Frame} {y : BlockState} {ev : Event}

/-! ## Handler entry -/

theorem line_running (line : s.line g = true) : (s.device g.dev).st = .running := by
  obtain ⟨d, kind⟩ := g
  cases kind
  · exact ((irqRxLine_iff s d).1 line).1
  · exact ((irqTxLine_iff s d).1 line).1

/-- A handler enters where its line is 1 and every active handler is less urgent. -/
theorem enterHandler_engineOk (inv : s.Inv) (enabled : s.entryEnabled g = true) (step : p.isStepOf g.instr = true)
    (view : s.HandlerView g p) : s.EngineOk (s.enterHandler g p) g := by
  obtain ⟨pending, _, urgent, _⟩ := (entryEnabled_iff s g).1 enabled
  obtain ⟨inConfig, line, inactive⟩ := (pending_iff s g).1 pending
  refine ⟨inv.data.congr rfl rfl rfl, .of_dev rfl rfl rfl rfl fun _ => .inl rfl, inConfig, line_running line, fun r present => ?_,
    ?_, fun d active => ?_⟩
  · rcases List.mem_append.1 present with old | new
    · refine .inl ⟨old, fun own => ?_⟩
      simp [(isActive_iff_mem s g).2 (own ▸ List.mem_map_of_mem old)] at inactive
    · obtain rfl := List.mem_singleton.1 new
      exact .inr ⟨rfl, step, view.congr step rfl fun _ => id⟩
  · refine List.pairwise_append.2 ⟨inv.nesting, List.pairwise_singleton .., fun r old x new => ?_⟩
    obtain rfl := List.mem_singleton.1 new
    exact urgent r old
  · rw [isActive_iff_mem, enterHandler_active, List.map_append, List.mem_append] at active
    rcases active with old | new
    · exact .inl ((isActive_iff_mem s _).2 old)
    · obtain rfl : (⟨d, .rx⟩ : Handler) = g := List.mem_singleton.1 new
      exact .inr ((irqRxLine_iff s d).1 line).2.1

theorem execEntry_engineOk (inv : s.Inv) (enabled : s.entryEnabled g = true) (e : exec g.instr s = .next t) :
    s.EngineOk t g := by
  obtain ⟨pending, _⟩ := (entryEnabled_iff s g).1 enabled
  obtain ⟨_, line, inactive⟩ := (pending_iff s g).1 pending
  have entry : s.handlerPos g = none := by
    rw [← Option.not_isSome_iff_eq_none, ← isActive_iff_handlerPos, inactive]
    nofun
  obtain ⟨d, kind⟩ := g
  cases kind with
  | rx =>
    change execIrqRx d s = .next t at e
    simp only [execIrqRx, entry] at e
    cases e
    split
    case isTrue => exact enterHandler_engineOk inv enabled rfl trivial
    case isFalse room =>
      obtain ⟨_, _, frames⟩ := (irqRxLine_iff s d).1 line
      exact enterHandler_engineOk inv enabled rfl ⟨frames, Bool.eq_false_iff.2 room⟩
  | tx =>
    change execIrqTx d s = .next t at e
    simp only [execIrqTx, entry] at e
    cases e
    exact enterHandler_engineOk inv enabled rfl trivial

theorem execResume_engineOk (inv : s.Inv) (enabled : s.resumeEnabled g = true) (e : exec g.instr s = .next t) :
    s.EngineOk t g := by
  obtain ⟨active, _⟩ := (resumeEnabled_iff s g).1 enabled
  obtain ⟨p, pos⟩ := Option.isSome_iff_exists.1 ((isActive_iff_handlerPos s g).1 active)
  obtain ⟨d, kind⟩ := g
  cases kind with
  | rx => exact execIrqRx_engineOk inv pos e
  | tx => exact execIrqTx_engineOk inv pos e

/-! ## `BUS[b]` (R240, R241) -/

/-- What a step of `BUS[b]` leaves: devices, command and handlers as they were, and no FIFO emptied. -/
structure State.BusOk (s t : State) : Prop where
  cfg : t.cfg = s.cfg
  cmd : t.cmd = s.cmd
  cur : t.cur = s.cur
  dev : t.dev = s.dev
  active : t.active = s.active
  data : t.DataOk
  fifo : ∀ b, (s.block b).rxfifo ≠ [] → (t.block b).rxfifo ≠ []

namespace State.BusOk

theorem refl (data : s.DataOk) : s.BusOk s := ⟨rfl, rfl, rfl, rfl, rfl, data, fun _ => id⟩

theorem congr (h : s.BusOk t) (cfg : u.cfg = t.cfg) (cmd : u.cmd = t.cmd) (cur : u.cur = t.cur) (dev : u.dev = t.dev)
    (active : u.active = t.active) (blk : u.blk = t.blk) : s.BusOk u :=
  ⟨cfg.trans h.cfg, cmd.trans h.cmd, cur.trans h.cur, dev.trans h.dev, active.trans h.active, h.data.congr cfg dev blk,
    fun b => block_eq_of_blk blk b ▸ h.fifo b⟩

theorem afterDraw (h : s.BusOk t) : s.BusOk t.afterDraw := h.congr rfl rfl rfl rfl rfl rfl

theorem trans (h : s.BusOk t) (g : t.BusOk u) : s.BusOk u :=
  ⟨g.cfg.trans h.cfg, g.cmd.trans h.cmd, g.cur.trans h.cur, g.dev.trans h.dev, g.active.trans h.active, g.data,
    fun b frames => g.fifo b (h.fifo b frames)⟩

/-- The controller of a block in NORMAL is written within its sizes, its FIFO not emptied. -/
theorem setBlock (data : s.DataOk) (used : ¬ s.Idle b) (mbox : y.mbox.length ≤ s.cfg.mboxCount)
    (rxfifo : y.rxfifo.length ≤ s.cfg.rxFifoDepth) (kept : (s.block b).rxfifo ≠ [] → y.rxfifo ≠ []) :
    s.BusOk (s.setBlock b y) := by
  refine ⟨rfl, rfl, rfl, rfl, rfl, data.setBlock used mbox rxfifo, fun c => ?_⟩
  rcases block_setBlock_cases s b y c with same | ⟨rfl, set⟩
  · rw [same]
    exact id
  · rw [set]
    exact kept

end State.BusOk

theorem overwriteLast_ne_nil (l : List Frame) (f : Frame) : overwriteLast l f ≠ [] := by simp [overwriteLast]

theorem length_overwriteLast_le {n : Nat} {l : List Frame} (positive : 1 ≤ n) (bound : l.length ≤ n) :
    (overwriteLast l f).length ≤ n := by
  simp [overwriteLast]
  omega

theorem afterFrame_block (s : State) (b : Nat) : s.afterFrame.block b = s.block b :=
  block_eq_of_blk (by simp only [State.afterFrame, afterDraw_blk]) b

theorem afterFrame_busOk (data : s.DataOk) : s.BusOk s.afterFrame :=
  (State.BusOk.refl data).afterDraw.afterDraw.afterDraw.afterDraw

theorem deliver_busOk (data : s.DataOk) (used : ¬ s.Idle b) (inRange : b < s.cfg.numBlocks)
    (positive : 1 ≤ s.cfg.rxFifoDepth) : s.BusOk (s.deliver b f) := by
  obtain ⟨mbox, rxfifo, _⟩ := data.blocks b inRange
  unfold State.deliver
  split
  case isTrue room => exact .setBlock data used mbox (by simpa using room) fun _ => by simp
  case isFalse =>
    dsimp only
    split
    · have written : s.BusOk (s.setBlock b { s.block b with rxfifo := overwriteLast (s.block b).rxfifo f }) :=
        .setBlock data used mbox (length_overwriteLast_le positive rxfifo) fun _ => overwriteLast_ne_nil _ f
      exact written.congr rfl rfl rfl rfl rfl rfl
    · exact (State.BusOk.refl data).congr rfl rfl rfl rfl rfl rfl

theorem busComplete_busOk (data : s.DataOk) (inRange : b < s.cfg.numBlocks) : s.BusOk (busComplete b s) := by
  unfold busComplete
  split
  case isTrue normal =>
    have used := (data.blocks b inRange).not_idle_of_normal normal
    obtain ⟨mbox, rxfifo, _⟩ := data.blocks b inRange
    exact .setBlock data used (by simp; omega) rxfifo id
  case isFalse => exact .refl data

theorem busArrive_busOk (inv : s.Inv) (inRange : b < s.cfg.numBlocks) : s.BusOk (busArrive b s) := by
  obtain ⟨ranges, _, _⟩ := s.cfg.admitted_iff.1 inv.admitted
  obtain ⟨_, _, _, _, _, _, _, _, _, positive, _⟩ := s.cfg.inRange_iff.1 ranges
  have drawn := afterFrame_busOk inv.data
  rw [← drawn.cfg] at inRange positive
  unfold busArrive
  split
  case isTrue normal =>
    rw [← afterFrame_block] at normal
    have used := (drawn.data.blocks b inRange).not_idle_of_normal normal
    dsimp only
    split
    · exact drawn.trans (deliver_busOk drawn.data used inRange positive)
    · exact drawn
  case isFalse => exact .refl inv.data

/-! ## Every event -/

/-- The parts of the invariant an event has to keep that no single table shows. -/
structure State.Live (s : State) : Prop where
  data : s.DataOk
  command : s.CommandOk
  handlers : s.HandlersOk
  nesting : s.NestingOk
  mask : s.MaskOk

theorem State.AppOk.live (h : s.AppOk) : s.Live := ⟨h.data, h.commandOk, h.handlersOk, h.nestingOk, h.maskOk⟩

theorem State.EngineOk.live (h : s.EngineOk t g) (inv : s.Inv) : t.Live :=
  ⟨h.data, h.frame.commandOk inv.command, h.handlersOk inv, h.nesting, h.maskOk inv⟩

theorem State.BusOk.live (h : s.BusOk t) (inv : s.Inv) : t.Live := by
  have device (e : Nat) := device_eq_of_dev h.dev e
  have ring (ref : RingRef) := ring_eq_of_dev h.dev ref
  refine ⟨h.data, ?command, ?handlers, ?nesting, ?mask⟩
  case command =>
    exact inv.command.of_keeps h.cfg h.cmd h.cur (fun e => by rw [device e]) (fun e => ring ⟨e, .rx⟩ ▸ .refl _)
      fun e => ring ⟨e, .tx⟩ ▸ .refl _
  case handlers =>
    intro r present
    obtain ⟨step, inConfig, running, view⟩ := inv.handlers r (h.active ▸ present)
    refine ⟨step, h.cfg ▸ inConfig, by rw [device, running], view.congr step (ring _) fun _ => ?_⟩
    rw [blockOf_eq_of_cfg h.cfg]
    exact h.fifo _
  case nesting =>
    rw [nestingOk_iff, h.active]
    simp only [prio_eq_of_cfg h.cfg]
    exact (nestingOk_iff s).1 inv.nesting
  case mask =>
    intro d inConfig reading
    rw [State.readingMasked, h.cur, h.cmd] at reading
    rw [device, State.isActive, h.active]
    exact inv.mask d (h.cfg ▸ inConfig) reading

theorem runEvent_live (inv : s.Inv) (enabled : s.enabled ev = true) (e : runEvent ev s = .next t) : t.Live := by
  cases ev with
  | app =>
    obtain ⟨free, _⟩ := (enabled_app_iff s).1 enabled
    cases busy : s.busy with
    | true => exact (commandStep_appOk inv free ((busy_iff s).1 busy) (by simpa [runEvent, busy] using e)).live
    | false => exact (hostStep_appOk inv free (by simpa [runEvent, busy] using e)).live
  | port =>
    obtain ⟨free, _⟩ := (enabled_port_iff s).1 enabled
    exact (hostStep_appOk inv free e).live
  | enter g => exact (execEntry_engineOk inv enabled e).live inv
  | resume g => exact (execResume_engineOk inv enabled e).live inv
  | complete b =>
    cases e
    exact (busComplete_busOk inv.data (of_decide_eq_true enabled)).live inv
  | arrive b =>
    cases e
    exact (busArrive_busOk inv (of_decide_eq_true enabled)).live inv

end Machine
end Sys2Proof
end

section
/-!
SUPPORT. The banks of a block with no RUNNING device stay clear (spec/43_filter.md R166, spec/44_controller.md R195), the pins driven
stay those of devices (spec/10_state.md R31); and with that every step keeps the whole invariant.
-/

namespace Sys2Proof
namespace Machine

variable {s t : State} {i : Instr} {a d e k : Nat}

/-! ## Banks -/

/-- Devices of one block own the same banks (R8(e)). -/
theorem owned_of_sameBlock (admitted : s.cfg.admitted = true) (hd : d < s.cfg.numDev) (he : e < s.cfg.numDev)
    (same : s.blockOf e = s.blockOf d) : s.farrayOf e = s.farrayOf d ∧ s.ownsBank e k = s.ownsBank d k := by
  obtain ⟨_, own, pairs⟩ := s.cfg.admitted_iff.1 admitted
  obtain ⟨⟨rangeE, _⟩, _⟩ := (s.cfg.rangeOk_iff _).1 (own e he)
  obtain ⟨⟨rangeD, _⟩, _⟩ := (s.cfg.rangeOk_iff _).1 (own d hd)
  obtain ⟨_, _, sameBlock, _⟩ := (s.cfg.pairOk_iff rangeE rangeD).1 (pairs e he d hd)
  obtain ⟨farray, _, firstBank, maxBank⟩ := sameBlock same
  exact ⟨farray, by rw [State.ownsBank, State.ownsBank, State.desc, State.desc, firstBank, maxBank]⟩

/-- `CLOSE` alone stops a RUNNING device. -/
theorem exec_stops (inv : s.Inv) (step : exec i s = .next t) (running : (s.device d).st = .running)
    (stopped : (t.device d).st ≠ .running) :
    s.cfg.hasDevice d = true ∧ i = .devClose d ∧ t = (s.releaseDevice d).finish .ok [] := by
  have changed : (t.device d).st ≠ (s.device d).st := running ▸ stopped
  obtain ⟨present, ⟨hi, _⟩ | ⟨_, configured, _⟩ | ⟨hi, _⟩⟩ := ((exec_writes step).device_write d).st.resolve_left changed
  · cases hi
    obtain ⟨c, rfl⟩ | ⟨_, _, _, free, _⟩ := exec_devOpen_cases step
    · exact absurd running stopped
    · obtain ⟨claimed, _⟩ := (inv.registry d (Config.lt_of_hasDevice present)).1 (by simp [running])
      simp [free] at claimed
  · simp [running] at configured
  · cases hi
    obtain ⟨c, rfl⟩ | ⟨_, _, released⟩ := exec_devClose_cases step
    · exact absurd running stopped
    · exact ⟨present, rfl, released⟩

/-- A command that checks for RUNNING leaves the arrays of a device that is not. -/
theorem ready_of_flt_ne (checks : StartsOnRunning i d) (start : s.pos = .start) (step : exec i s = .next t)
    (changed : t.flt ≠ s.flt) : s.Ready d := by
  obtain ⟨absent, stopped⟩ := checks s start
  cases present : s.cfg.hasDevice d
  · cases (absent present).symm.trans step
    exact absurd rfl changed
  · refine ⟨present, not_not.1 fun notRunning => ?_⟩
    cases (stopped present notRunning).symm.trans step
    exact changed rfl

/-- What may write a bank programs one of a RUNNING device, or clears all of its device. -/
theorem WritesBanks.programs_or_clears (h : WritesBanks i) : (StartsOnRunning i i.deviceOf ∧ ∀ d, i ≠ .devClose d) ∨
    i = .fltClearAll i.deviceOf ∨ i = .devBegin i.deviceOf ∨ i = .devClose i.deviceOf := by
  rcases h with ⟨bankCommand, _⟩ | acceptAll | clears
  · have other {j : Instr} (format : j.format ≠ .cmdB) : i ≠ j := fun same => format (same ▸ bankCommand)
    exact .inl ⟨startsOnRunning (by simp [bankCommand]) (other nofun) (fun _ => other nofun) (fun _ => other nofun)
      fun _ => other nofun, fun _ => other nofun⟩
  · rw [acceptAll]
    exact .inl ⟨startsOnRunning_of_single fun _ => rfl, nofun⟩
  · exact .inr clears

/-- A bank that an instruction writes is cleared, or its device is RUNNING and owns it. -/
theorem exec_bank_cases (step : exec i s = .next t) (changed : t.bank a k ≠ s.bank a k) : t.bank a k = Bank.reset ∨
    (s.Ready i.deviceOf ∧ (∀ d, i ≠ .devClose d) ∧ a = s.farrayOf i.deviceOf ∧ s.ownsBank i.deviceOf k = true) := by
  have arrays : t.flt ≠ s.flt := fun same => changed (bank_eq_of_flt same a k)
  have writes := (exec_flt step).resolve_left arrays
  have owner : ¬ (a ≠ s.farrayOf i.deviceOf ∨ s.ownsBank i.deviceOf k = false) :=
    fun other => changed ((exec_changesOnly step).bank a k other)
  rw [not_or, not_not, Bool.not_eq_false] at owner
  obtain ⟨array, owned⟩ := owner
  rcases writes.programs_or_clears with ⟨checks, opened⟩ | clears
  · exact .inr ⟨ready_of_flt_ne checks (start_of_writesBanks writes step) step arrays, opened, array, owned⟩
  · refine .inl (State.ClearsAtMost.bank ?_ owned array changed)
    rcases clears with h | h | h <;> rw [h] at step
    · exact execFltClearAll_clears step
    · exact execDevBegin_clears step
    · exact execDevClose_clears step

/-- Where the arrays stand and no device stops, idle blocks stay clear. -/
theorem State.BanksOk.of_kept (h : s.BanksOk) (cfg : t.cfg = s.cfg) (flt : t.flt = s.flt)
    (kept : ∀ d, (t.device d).st = (s.device d).st) : t.BanksOk := by
  intro d inConfig idle k first last
  rw [desc_eq_of_cfg cfg] at first last
  rw [bank_eq_of_flt flt, farrayOf_eq_of_cfg cfg]
  rw [blockOf_eq_of_cfg cfg] at idle
  exact h d (cfg ▸ inConfig) (idle.of_kept cfg fun e _ running => (kept e).trans running) k first last

theorem exec_banksOk (inv : s.Inv) (step : exec i s = .next t) : t.BanksOk := by
  have cfg := (exec_writes step).cfg_eq
  intro d inConfig idle k first last
  rw [desc_eq_of_cfg cfg] at first last
  rw [farrayOf_eq_of_cfg cfg]
  rw [blockOf_eq_of_cfg cfg] at idle
  replace inConfig : d < s.cfg.numDev := cfg ▸ inConfig
  have owned : s.ownsBank d k = true := (ownsBank_iff ..).2 ⟨first, last⟩
  have stopped {e : Nat} (he : e < s.cfg.numDev) (same : s.blockOf e = s.blockOf d) : (t.device e).st ≠ .running :=
    idle e (cfg ▸ he) ((blockOf_eq_of_cfg cfg e).trans same)
  by_cases changed : t.bank (s.farrayOf d) k = s.bank (s.farrayOf d) k
  · by_cases idleBefore : s.Idle (s.blockOf d)
    · exact changed.trans (inv.banks d inConfig idleBefore k first last)
    · unfold State.Idle at idleBefore
      push Not at idleBefore
      obtain ⟨e, he, same, running⟩ := idleBefore
      obtain ⟨_, _, rfl⟩ := exec_stops inv step running (stopped he same)
      obtain ⟨farray, owns⟩ := owned_of_sameBlock inv.admitted inConfig he same
      rw [bank_eq_of_flt (finish_flt ..), bank_eq_of_flt releaseDevice_flt_eq, ← farray]
      exact bank_clearOwned_of_owned (owns.trans owned)
  · obtain reset | ⟨⟨present, running⟩, opened, array, owns⟩ := exec_bank_cases step changed
    · exact reset
    · have he := Config.lt_of_hasDevice present
      have same : s.blockOf i.deviceOf = s.blockOf d := not_not.1 fun other => by
        rcases not_owned_of_otherBlock inv.admitted inConfig he other owns with h | h
        · exact h array.symm
        · simp [owned] at h
      obtain ⟨_, closes, _⟩ := exec_stops inv step running (stopped he same)
      exact absurd closes (opened _)

/-- A step keeps the banks of idle blocks clear. -/
theorem step_banksOk (inv : s.Inv) (step : step s = .next t) : t.BanksOk := by
  obtain ⟨i, w, runs⟩ := step_writes step
  cases i with
  | some i =>
    obtain e | rfl := (runs i rfl).exec_or_passes step
    · exact exec_banksOk inv.afterChoice e
    · exact inv.afterChoice.banks
  | none =>
    have kept (d : Nat) := (w.device_write d).st.resolve_right (by simp [State.LifeWrite])
    obtain flt | ⟨i, _, e⟩ := step_flt step
    · exact inv.afterChoice.banks.of_kept w.cfg_eq (flt.trans (afterChoice_flt s).symm) kept
    · exact exec_banksOk inv.afterChoice e

/-! ## Pins -/

/-- The pins that a step drives are those of devices (R31, R204). -/
theorem State.Writes.pinsOk {i : Option Instr} (w : s.Writes i t) (ok : s.PinsOk) : t.PinsOk := by
  induction w with
  | refl => exact ok
  | control _ cfg _ _ _ pins _ ih =>
    obtain ⟨wf, ofDevice⟩ := ih
    exact ⟨pins ▸ wf, fun x driven => by simpa only [State.desc, cfg] using ofDevice x (pins ▸ driven)⟩
  | device _ _ ih => exact ih
  | block _ _ ih => exact ih
  | array _ _ ih => exact ih
  | pin w drives ih =>
    obtain ⟨present, _⟩ := drives
    exact driveTrx_pinsOk _ (w.cfg_eq ▸ Config.lt_of_hasDevice present) ih

/-! ## Faults -/

theorem step_onlyPortFaults (inv : s.Inv) (step : step s = .next t) : t.OnlyPortFaults := by
  intro r recorded
  obtain ⟨u, e, faults⟩ | ⟨outside, _⟩ := step_proceeds inv
  · cases step.symm.trans e
    obtain old | ⟨addr, width, rfl⟩ := faults r recorded
    · exact inv.faults r old
    · exact ⟨rfl, trivial⟩
  · cases step.symm.trans outside

/-! ## Whole steps -/

theorem step_live (inv : s.Inv) (step : step s = .next t) : t.Live := by
  rcases step_cases s with ⟨_, e⟩ | ⟨_, enabled, e⟩ | ⟨_, _, e⟩ <;> rw [e] at step
  · cases step
  · exact runEvent_live inv.afterChoice enabled step
  · cases step
    exact ⟨inv.afterChoice.data, inv.afterChoice.command, inv.afterChoice.handlers, inv.afterChoice.nesting, inv.afterChoice.mask⟩

end Machine

open Machine

/-- Settles O59: the tables' sizes and the registry are O56 and O57; devices, blocks, the command and the handlers are
`step_live`; banks, pins and faults have a lemma each. -/
theorem stepKeepsInvariant : Obligations.StepKeepsInvariant := by
  intro s t inv step
  obtain ⟨cfg, sized, locked, _, _⟩ := stepKeepsStorage s t step
  obtain ⟨data, command, handlers, nesting, mask⟩ := step_live inv step
  obtain ⟨_, w, _⟩ := step_writes step
  exact {
    admitted := cfg ▸ inv.admitted
    sized := sized inv.sized
    registry := stepKeepsRegistry.1 s t inv.fits inv.registry step
    locked := locked inv.sized inv.locked
    devices := fun d _ => data.devices d
    blocks := data.blocks
    banks := step_banksOk inv step
    command, handlers, nesting, mask
    pins := w.pinsOk inv.afterChoice.pins
    faults := step_onlyPortFaults inv step }

end Sys2Proof
end

section
/-!
SUPPORT. The engine handlers step by step (spec/45_irq.md R231 to R233): what entering, moving and leaving do to the positions in
`ACTIVE`, and what `IRQ_RX` and `IRQ_TX` do at each of their positions.
-/

namespace Sys2Proof
namespace Machine

variable {s u : State} {g h : Handler} {p q : Pos} {d n : Nat} {f : Frame} {w : FrameWords} {x : Option Frame} {rest : List Frame}

/-! ## Positions in `ACTIVE` -/

/-- Moving a handler leaves it where it was found in `ACTIVE`. -/
theorem handlerPos_goto (s : State) (g : Handler) (q : Pos) (h : Handler) : (s.goto (.engine g) q).handlerPos h =
    (s.active.find? fun r => decide (r.handler = h)).map fun r => if r.handler = g then q else r.pos := by
  have same : (fun r : Running => decide (r.handler = h)) ∘ (fun r => if r.handler = g then { r with pos := q } else r) =
      fun r => decide (r.handler = h) := by
    funext r
    simp only [Function.comp_apply, apply_ite Running.handler, ite_self]
  simp only [State.handlerPos, State.goto, List.find?_map, same, Option.map_map, Function.comp_def, apply_ite Running.pos]

/-- The handler stands at its new position, and every other where it stood. -/
theorem goto_positions (active : u.active = s.active) (pos : s.handlerPos g = some p) :
    (u.goto (.engine g) q).handlerPos g = some q ∧ ∀ h, h ≠ g → (u.goto (.engine g) q).handlerPos h = s.handlerPos h := by
  refine ⟨?_, fun h other => ?_⟩ <;> rw [handlerPos_goto, active]
  · obtain ⟨r, found, _⟩ := Option.map_eq_some_iff.1 pos
    have own : r.handler = g := by simpa using List.find?_some found
    rw [found, Option.map_some, if_pos own]
  · refine Option.map_congr fun r found => if_neg fun own => other ?_
    have at' : r.handler = h := by simpa using List.find?_some found
    exact at'.symm.trans own

/-- The handler has left, and every other stands where it stood. -/
theorem exit_positions (active : u.active = s.active) : (u.exitHandler g).handlerPos g = none ∧
    ∀ h, h ≠ g → (u.exitHandler g).handlerPos h = s.handlerPos h := by
  refine ⟨by simp [State.handlerPos, State.exitHandler], fun h other => ?_⟩
  have same (r : Running) : (r.handler ≠ g ∧ r.handler = h) ↔ r.handler = h :=
    and_iff_right_of_imp fun at' own => other (at'.symm.trans own)
  simp only [State.handlerPos, State.exitHandler, active, List.find?_filter, decide_eq_true_eq, same]

theorem setDevice_device (s : State) (d : Nat) : s.setDevice d (s.device d) = s := by
  rcases Nat.lt_or_ge d s.dev.length with present | absent
  · simp [State.setDevice, State.device, present]
  · rw [setDevice_of_length_le _ _ absent]

/-! ## `IRQ_RX` (R232) -/

theorem exec_irqRx_entry (idle : s.handlerPos ⟨d, .rx⟩ = none) : exec (.irqRx d) s =
    .next (s.enterHandler ⟨d, .rx⟩ (if (s.ring ⟨d, .rx⟩).isFull then .backPressure else .receive)) := by
  simp only [exec, execIrqRx, idle]

theorem exec_irqRx_backPressure (pos : s.handlerPos ⟨d, .rx⟩ = some .backPressure) :
    exec (.irqRx d) s = .next ((s.setRxIe d false).exitHandler ⟨d, .rx⟩) := by
  simp only [exec, execIrqRx, pos]

theorem exec_irqRx_receive (pos : s.handlerPos ⟨d, .rx⟩ = some .receive) (fifo : (s.block (s.blockOf d)).rxfifo = f :: rest) :
    exec (.irqRx d) s = .next ((s.popFifo (s.blockOf d)).goto (.engine ⟨d, .rx⟩) (.pushCheck f)) := by
  simp only [exec, execIrqRx, pos, fifo]

theorem exec_irqRx_pushCheck (pos : s.handlerPos ⟨d, .rx⟩ = some (.pushCheck f)) : exec (.irqRx d) s =
    .next (s.goto (.engine ⟨d, .rx⟩)
      (if (s.ring ⟨d, .rx⟩).isFull then .exit else .pushFill (s.ring ⟨d, .rx⟩).head f)) := by
  simp only [exec, execIrqRx, pos, pushCheckStep_eq]

theorem exec_irqRx_pushFill (pos : s.handlerPos ⟨d, .rx⟩ = some (.pushFill n f)) (slot : n < (s.ring ⟨d, .rx⟩).cap) :
    exec (.irqRx d) s = .next ((s.setRing ⟨d, .rx⟩ ((s.ring ⟨d, .rx⟩).store n f.words)).goto (.engine ⟨d, .rx⟩)
      (.pushPublish n)) := by
  simp only [exec, execIrqRx, pos, pushFillStep_store slot]

theorem exec_irqRx_pushPublish (pos : s.handlerPos ⟨d, .rx⟩ = some (.pushPublish n)) : exec (.irqRx d) s =
    .next ((s.setRing ⟨d, .rx⟩ ((s.ring ⟨d, .rx⟩).publish n)).goto (.engine ⟨d, .rx⟩) .exit) := by
  simp only [exec, execIrqRx, pos, pushPublishStep]

theorem exec_irqRx_exit (pos : s.handlerPos ⟨d, .rx⟩ = some .exit) :
    exec (.irqRx d) s = .next (s.exitHandler ⟨d, .rx⟩) := by
  simp only [exec, execIrqRx, pos]

/-! ## `IRQ_TX` (R233) -/

theorem exec_irqTx_entry (idle : s.handlerPos ⟨d, .tx⟩ = none) :
    exec (.irqTx d) s = .next (s.enterHandler ⟨d, .tx⟩ .loopTest) := by
  simp only [exec, execIrqTx, idle]

theorem exec_irqTx_loopTest (pos : s.handlerPos ⟨d, .tx⟩ = some .loopTest) : exec (.irqTx d) s =
    .next (s.goto (.engine ⟨d, .tx⟩) (if (s.ring ⟨d, .tx⟩).isEmpty then .exit else .peekCheck)) := by
  simp only [exec, execIrqTx, pos]

theorem exec_irqTx_peekCheck (pos : s.handlerPos ⟨d, .tx⟩ = some .peekCheck) (occupied : (s.ring ⟨d, .tx⟩).isEmpty = false) :
    exec (.irqTx d) s = .next (s.goto (.engine ⟨d, .tx⟩) (.peekRead (s.ring ⟨d, .tx⟩).tail)) := by
  simp only [exec, execIrqTx, pos, occupied, Bool.false_eq_true, if_false]

theorem exec_irqTx_peekRead (pos : s.handlerPos ⟨d, .tx⟩ = some (.peekRead n)) (read : (s.ring ⟨d, .tx⟩).readSlot n = .ok w) :
    exec (.irqTx d) s = .next (s.goto (.engine ⟨d, .tx⟩) (.transmit (Frame.ofWords w))) := by
  simp only [exec, execIrqTx, pos, peekReadStep_ok read]

theorem exec_irqTx_transmit {sent : Bool} (pos : s.handlerPos ⟨d, .tx⟩ = some (.transmit f))
    (attempt : s.hwTransmit (s.blockOf d) f = (sent, u)) : exec (.irqTx d) s =
    .next (u.goto (.engine ⟨d, .tx⟩) (if sent then .popCheck none else .exit)) := by
  cases sent <;> simp only [exec, execIrqTx, pos, attempt, Bool.false_eq_true, if_true, if_false]

theorem exec_irqTx_popCheck (pos : s.handlerPos ⟨d, .tx⟩ = some (.popCheck x)) : exec (.irqTx d) s =
    .next (s.goto (.engine ⟨d, .tx⟩)
      (if (s.ring ⟨d, .tx⟩).isEmpty then .loopTest else .popAdvance (s.ring ⟨d, .tx⟩).tail x)) := by
  simp only [exec, execIrqTx, pos, popCheckStep_eq]

theorem exec_irqTx_popAdvance (pos : s.handlerPos ⟨d, .tx⟩ = some (.popAdvance n x)) : exec (.irqTx d) s =
    .next ((s.setRing ⟨d, .tx⟩ ((s.ring ⟨d, .tx⟩).advance n)).goto (.engine ⟨d, .tx⟩) .loopTest) := by
  simp only [exec, execIrqTx, pos, popAdvanceStep]

/-- The last step writes `TX_IE`: 0 where the ring is empty, else what it was. -/
theorem exec_irqTx_exit (pos : s.handlerPos ⟨d, .tx⟩ = some .exit) : exec (.irqTx d) s =
    .next ((s.setTxIe d (if (s.ring ⟨d, .tx⟩).isEmpty then false else (s.device d).txIe)).exitHandler ⟨d, .tx⟩) := by
  simp only [exec, execIrqTx, pos]
  split
  · rfl
  · exact congrArg (fun v : State => Host.Outcome.next (v.exitHandler ⟨d, .tx⟩)) (setDevice_device s d).symm

end Machine

open Machine

/-- Settles O42: the step rules of `IRQ_RX`; what the fill stores and leaves is `storesFrame_store`. -/
theorem irqRxSteps : Obligations.IrqRxSteps := by
  intro d s fits inConfig
  obtain ⟨present, inRange⟩ := fits.device_inRange inConfig
  refine ⟨fun idle => ?entry, fun pos => ?backPressure, fun f rest pos fifo => ?receive, fun f pos => ?check,
    fun n f pos slot => ?fill, fun n pos => ?publish, fun pos => ?exit⟩
  case entry =>
    rw [exec_irqRx_entry idle]
    simp only [Ring.isFull_iff]
    rfl
  case backPressure =>
    obtain ⟨left, others⟩ := exit_positions (g := ⟨d, .rx⟩) (setRxIe_active s d false)
    exact ⟨_, exec_irqRx_backPressure pos, device_setDevice_self _ _ present, otherDevices_setDevice s d _, left, others, rfl⟩
  case receive =>
    obtain ⟨moved, others⟩ := goto_positions (q := .pushCheck f) (popFifo_active s (s.blockOf d)) pos
    refine ⟨_, exec_irqRx_receive pos fifo, ?_, fun c other => block_setBlock_ne _ _ (Ne.symm other), moved, others, rfl⟩
    refine (block_setBlock_self _ _ inRange).trans ?_
    rw [fifo, List.tail_cons]
  case check =>
    obtain ⟨moved, others⟩ := goto_positions rfl pos
    refine ⟨_, exec_irqRx_pushCheck pos, moved.trans ?_, others, rfl⟩
    simp only [Ring.isFull_iff]
  case fill =>
    obtain ⟨moved, others⟩ := goto_positions (setRing_active s ⟨d, .rx⟩ _) pos
    exact ⟨_, exec_irqRx_pushFill pos slot, moved, others, rfl, storesFrame_store present⟩
  case publish =>
    obtain ⟨moved, others⟩ := goto_positions (setRing_active s ⟨d, .rx⟩ _) pos
    exact ⟨_, exec_irqRx_pushPublish pos, moved, others, device_setRing_self _ present,
      fun e other => otherDevices_setRing e other, rfl⟩
  case exit =>
    obtain ⟨left, others⟩ := exit_positions (s := s) (g := ⟨d, .rx⟩) rfl
    exact ⟨_, exec_irqRx_exit pos, left, others, rfl⟩

/-- Settles O43: the step rules of `IRQ_TX`; a transmit attempt is `hwTransmit_of_transmits` or `hwTransmit_of_not_transmits`. -/
theorem irqTxSteps : Obligations.IrqTxSteps := by
  intro d s fits inConfig
  obtain ⟨present, inRange⟩ := fits.device_inRange inConfig
  refine ⟨exec_irqTx_entry, fun pos => ?loopTest, fun pos occupied => ?peekCheck, fun n w pos read => ?peekRead,
    fun f pos => ?transmit, fun x pos => ?popCheck, fun n x pos => ?advance, fun pos => ?exit⟩
  case loopTest =>
    obtain ⟨moved, others⟩ := goto_positions rfl pos
    refine ⟨_, exec_irqTx_loopTest pos, moved.trans ?_, others, rfl⟩
    simp only [Ring.isEmpty_iff]
  case peekCheck =>
    obtain ⟨moved, others⟩ := goto_positions rfl pos
    exact ⟨_, exec_irqTx_peekCheck pos occupied, moved, others, rfl⟩
  case peekRead =>
    obtain ⟨moved, others⟩ := goto_positions rfl pos
    exact ⟨_, exec_irqTx_peekRead pos read, moved, others, rfl⟩
  case transmit =>
    by_cases sends : s.Transmits (s.blockOf d)
    · obtain ⟨u, draws, attempt⟩ := hwTransmit_of_transmits sends f
      refine ⟨_, exec_irqTx_transmit pos attempt, ?_⟩
      rw [if_pos (show _ ∧ _ from sends)]
      have active : (u.loadMailbox (s.blockOf d) f).active = s.active := by rcases draws with rfl | ⟨_, rfl⟩ <;> rfl
      obtain ⟨moved, others⟩ := goto_positions active pos
      rcases draws with rfl | ⟨_, rfl⟩ <;>
        exact ⟨others, fun c other => block_setBlock_ne _ _ (Ne.symm other), rfl, moved, block_setBlock_self _ _ inRange⟩
    · obtain ⟨u, draws, attempt⟩ := hwTransmit_of_not_transmits sends f
      refine ⟨_, exec_irqTx_transmit pos attempt, ?_⟩
      rw [if_neg (show ¬ (_ ∧ _) from sends)]
      have active : u.active = s.active := by rcases draws with rfl | rfl <;> rfl
      obtain ⟨moved, others⟩ := goto_positions active pos
      rcases draws with rfl | rfl <;> exact ⟨others, fun _ _ => rfl, rfl, moved, rfl⟩
  case popCheck =>
    obtain ⟨moved, others⟩ := goto_positions rfl pos
    refine ⟨_, exec_irqTx_popCheck pos, moved.trans ?_, others, rfl⟩
    simp only [Ring.isEmpty_iff]
  case advance =>
    obtain ⟨moved, others⟩ := goto_positions (setRing_active s ⟨d, .tx⟩ _) pos
    exact ⟨_, exec_irqTx_popAdvance pos, moved, others, device_setRing_self _ present,
      fun e other => otherDevices_setRing e other, rfl⟩
  case exit =>
    obtain ⟨left, others⟩ := exit_positions (g := ⟨d, .tx⟩) (setTxIe_active s d _)
    refine ⟨_, exec_irqTx_exit pos, left, others, (device_setDevice_self _ _ present).trans ?_, otherDevices_setDevice s d _, rfl⟩
    simp only [Ring.isEmpty_iff]

end Sys2Proof
end

section
/-!
SUPPORT. Uninterrupted runs of the engine handlers (spec/45_irq.md R232, R233, R235): the chain of their steps, one turn of the
transmit loop, and the loop as an induction over the free mailboxes.
-/

namespace Sys2Proof
namespace Machine

variable {s t u : State} {h : Handler} {p q : Pos} {d b n : Nat} {f : Frame} {w : FrameWords} {ws vs : List FrameWords}
  {rest : List Frame} {ref : RingRef} {r : Ring} {v : Bool}

/-! ## A handler that has entered last -/

theorem handlerPos_eq_none_iff (s : State) (h : Handler) : s.handlerPos h = none ↔ ∀ r ∈ s.active, r.handler ≠ h := by
  simp [State.handlerPos]

section Entered

variable (idle : s.handlerPos h = none)

include idle

theorem enterHandler_handlerPos : (s.enterHandler h p).handlerPos h = some p := by
  have absent : s.active.find? (fun r => decide (r.handler = h)) = none := Option.map_eq_none_iff.1 idle
  simp [State.handlerPos, List.find?_append, absent]

/-- Moving it is entering at the new position. -/
theorem enterHandler_goto : (s.enterHandler h p).goto (.engine h) q = s.enterHandler h q := by
  have others : s.active.map (fun r => if r.handler = h then { r with pos := q } else r) = s.active :=
    (List.map_congr_left fun r present => if_neg ((handlerPos_eq_none_iff s h).1 idle r present)).trans (List.map_id' _)
  simp [State.enterHandler, State.goto, others]

/-- Its exit leaves no trace of the entry. -/
theorem enterHandler_exitHandler : (s.enterHandler h p).exitHandler h = s := by
  have others : s.active.filter (fun r => decide (r.handler ≠ h)) = s.active :=
    List.filter_eq_self.2 fun r present => decide_eq_true ((handlerPos_eq_none_iff s h).1 idle r present)
  rw [State.exitHandler, enterHandler_active, List.filter_append, others]
  simp [State.enterHandler]

end Entered

/-! ## The tables stand under the entry -/

@[simp] theorem enterHandler_ring : (s.enterHandler h p).ring ref = s.ring ref := rfl

@[simp] theorem enterHandler_setRing : (s.enterHandler h p).setRing ref r = (s.setRing ref r).enterHandler h p := rfl

@[simp] theorem enterHandler_popFifo : (s.enterHandler h p).popFifo b = (s.popFifo b).enterHandler h p := rfl

@[simp] theorem enterHandler_setRxIe : (s.enterHandler h p).setRxIe d v = (s.setRxIe d v).enterHandler h p := rfl

@[simp] theorem enterHandler_setTxIe : (s.enterHandler h p).setTxIe d v = (s.setTxIe d v).enterHandler h p := rfl

@[simp] theorem enterHandler_loadMailbox : (s.enterHandler h p).loadMailbox b f = (s.loadMailbox b f).enterHandler h p := rfl

/-! ## `IRQ_RX` (R232) -/

section Rx

variable (idle : s.handlerPos ⟨d, .rx⟩ = none)

include idle

/-- Back-pressure takes two steps: entry, then disable and exit. -/
theorem execTimes_irqRx_full (full : (s.ring ⟨d, .rx⟩).isFull = true) :
    execTimes (.irqRx d) 2 s = .next (s.setRxIe d false) := by
  have disabled : (s.setRxIe d false).handlerPos ⟨d, .rx⟩ = none := idle
  rw [execTimes_succ (exec_irqRx_entry idle), if_pos full,
    execTimes_succ (exec_irqRx_backPressure (enterHandler_handlerPos idle)), enterHandler_setRxIe,
    enterHandler_exitHandler disabled]
  rfl

/-- The six steps of a move: entry, FIFO, full test, fill, publish, exit. -/
theorem execTimes_irqRx (present : d < s.dev.length) (ok : (s.ring ⟨d, .rx⟩).Ok) (room : (s.ring ⟨d, .rx⟩).isFull = false)
    (fifo : (s.block (s.blockOf d)).rxfifo = f :: rest) : execTimes (.irqRx d) 6 s =
      .next ((s.popFifo (s.blockOf d)).setRing ⟨d, .rx⟩ ((s.ring ⟨d, .rx⟩).push f.words)) := by
  have slot := ok.head_lt (Ring.cap_ne_zero_of_not_full room)
  have taken : (s.popFifo (s.blockOf d)).handlerPos ⟨d, .rx⟩ = none := idle
  have written (r : Ring) : ((s.popFifo (s.blockOf d)).setRing ⟨d, .rx⟩ r).handlerPos ⟨d, .rx⟩ = none := idle
  have ring : (s.popFifo (s.blockOf d)).ring ⟨d, .rx⟩ = s.ring ⟨d, .rx⟩ := rfl
  rw [execTimes_succ (exec_irqRx_entry idle), if_neg (Bool.eq_false_iff.1 room),
    execTimes_succ (exec_irqRx_receive (enterHandler_handlerPos idle) fifo), blockOf_eq_of_cfg (enterHandler_cfg ..),
    enterHandler_popFifo, enterHandler_goto taken,
    execTimes_succ (exec_irqRx_pushCheck (enterHandler_handlerPos taken)), enterHandler_ring, ring,
    if_neg (Bool.eq_false_iff.1 room), enterHandler_goto taken,
    execTimes_succ (exec_irqRx_pushFill (enterHandler_handlerPos taken) slot), enterHandler_ring, ring, enterHandler_setRing,
    enterHandler_goto (written _), execTimes_succ (exec_irqRx_pushPublish (enterHandler_handlerPos (written _))),
    enterHandler_ring, ring_setRing_self _ _ present, enterHandler_setRing, setRing_setRing _ present,
    enterHandler_goto (written _), execTimes_succ (exec_irqRx_exit (enterHandler_handlerPos (written _))),
    enterHandler_exitHandler (written _)]
  rfl

end Rx

/-! ## A transmit attempt of hardware that cannot fail (R250) -/

theorem hwTransmit_of_free (certain : s.cfg.hwTxMayFail = false) (free : s.canTransmit b = true) :
    s.hwTransmit b f = (true, s.loadMailbox b f) := by
  simp [State.hwTransmit, certain, free]

theorem hwTransmit_of_blocked (blocked : s.canTransmit b = false) : s.hwTransmit b f = (false, s) := by
  simp [State.hwTransmit, blocked]

/-! ## One turn of the transmit loop (R233) -/

/-- The state after the frame words `w` went from `TAIL` of the transmit ring of device `d` into a mailbox. -/
def State.sendFrame (s : State) (d : Nat) (w : FrameWords) : State :=
  (s.loadMailbox (s.blockOf d) (Frame.ofWords w)).setRing ⟨d, .tx⟩ ((s.ring ⟨d, .tx⟩).advance (s.ring ⟨d, .tx⟩).tail)

section Turn

variable (idle : s.handlerPos ⟨d, .tx⟩ = none)

include idle

theorem execTimes_irqTx_empty (empty : (s.ring ⟨d, .tx⟩).isEmpty = true) :
    execTimes (.irqTx d) (n + 1) (s.enterHandler ⟨d, .tx⟩ .loopTest) = execTimes (.irqTx d) n (s.enterHandler ⟨d, .tx⟩ .exit) := by
  rw [execTimes_succ (exec_irqTx_loopTest (enterHandler_handlerPos idle)), enterHandler_ring, if_pos empty,
    enterHandler_goto idle]

section Occupied

variable (occupied : (s.ring ⟨d, .tx⟩).isEmpty = false) (read : (s.ring ⟨d, .tx⟩).readSlot (s.ring ⟨d, .tx⟩).tail = .ok w)

include occupied read

/-- The three steps from the loop's test to the attempt: test, empty test of the peek, read. -/
theorem execTimes_irqTx_attempt : execTimes (.irqTx d) (n + 3) (s.enterHandler ⟨d, .tx⟩ .loopTest) =
    execTimes (.irqTx d) n (s.enterHandler ⟨d, .tx⟩ (.transmit (Frame.ofWords w))) := by
  rw [execTimes_succ (exec_irqTx_loopTest (enterHandler_handlerPos idle)), enterHandler_ring,
    if_neg (Bool.eq_false_iff.1 occupied), enterHandler_goto idle,
    execTimes_succ (exec_irqTx_peekCheck (enterHandler_handlerPos idle) occupied), enterHandler_ring, enterHandler_goto idle,
    execTimes_succ (exec_irqTx_peekRead (enterHandler_handlerPos idle) read), enterHandler_goto idle]

/-- With no mailbox free the attempt fails and leads to the exit. -/
theorem execTimes_irqTx_blocked (blocked : s.canTransmit (s.blockOf d) = false) :
    execTimes (.irqTx d) (n + 4) (s.enterHandler ⟨d, .tx⟩ .loopTest) = execTimes (.irqTx d) n (s.enterHandler ⟨d, .tx⟩ .exit) := by
  rw [execTimes_irqTx_attempt idle occupied read,
    execTimes_succ (exec_irqTx_transmit (enterHandler_handlerPos idle) (hwTransmit_of_blocked blocked)),
    if_neg Bool.false_ne_true, enterHandler_goto idle]

/-- A whole turn takes six steps: those to the attempt, the attempt, then the empty test and the advance of the pop. -/
theorem execTimes_irqTx_turn (certain : s.cfg.hwTxMayFail = false) (free : s.canTransmit (s.blockOf d) = true) :
    execTimes (.irqTx d) (n + 6) (s.enterHandler ⟨d, .tx⟩ .loopTest) =
      execTimes (.irqTx d) n ((s.sendFrame d w).enterHandler ⟨d, .tx⟩ .loopTest) := by
  have loaded : (s.loadMailbox (s.blockOf d) (Frame.ofWords w)).handlerPos ⟨d, .tx⟩ = none := idle
  have ring : (s.loadMailbox (s.blockOf d) (Frame.ofWords w)).ring ⟨d, .tx⟩ = s.ring ⟨d, .tx⟩ := rfl
  have sent : (s.sendFrame d w).handlerPos ⟨d, .tx⟩ = none := idle
  rw [execTimes_irqTx_attempt idle occupied read,
    execTimes_succ (exec_irqTx_transmit (enterHandler_handlerPos idle) (hwTransmit_of_free certain free)), if_pos rfl,
    blockOf_eq_of_cfg (enterHandler_cfg ..), enterHandler_loadMailbox, enterHandler_goto loaded,
    execTimes_succ (exec_irqTx_popCheck (enterHandler_handlerPos loaded)), enterHandler_ring, ring,
    if_neg (Bool.eq_false_iff.1 occupied), enterHandler_goto loaded,
    execTimes_succ (exec_irqTx_popAdvance (enterHandler_handlerPos loaded)), enterHandler_ring, ring, enterHandler_setRing]
  exact congrArg _ (enterHandler_goto sent)

end Occupied
end Turn

/-! ## What the loop moves -/

/-- `t` is `s` once the frame words `ws` went from the transmit ring of device `d` into mailboxes, oldest first. -/
structure State.Sent (s t : State) (d : Nat) (ws : List FrameWords) : Prop where
  contents : (s.ring ⟨d, .tx⟩).contents = ws.map Except.ok ++ (t.ring ⟨d, .tx⟩).contents
  block : t.block (s.blockOf d) =
    { s.block (s.blockOf d) with mbox := (s.block (s.blockOf d)).mbox ++ ws.map Frame.ofWords }
  device : { t.device d with txr := { (t.device d).txr with tail := (s.device d).txr.tail } } = s.device d
  otherDevices : s.OtherDevices t d
  otherBlocks : s.OtherBlocks t (s.blockOf d)
  frame : { t with dev := s.dev, blk := s.blk } = s

namespace State.Sent

theorem refl (s : State) (d : Nat) : s.Sent s d [] := ⟨rfl, by simp, rfl, fun _ _ => rfl, fun _ _ => rfl, rfl⟩

theorem cfg (sent : s.Sent t d ws) : t.cfg = s.cfg := (congrArg State.cfg sent.frame :)

theorem trans (first : s.Sent u d ws) (second : u.Sent t d vs) : s.Sent t d (ws ++ vs) := by
  have block := second.block
  have otherBlocks := second.otherBlocks
  rw [blockOf_eq_of_cfg first.cfg] at block otherBlocks
  refine ⟨?_, ?_, ?_, fun e other => (second.otherDevices e other).trans (first.otherDevices e other),
    fun c other => (otherBlocks c other).trans (first.otherBlocks c other), ?_⟩
  · rw [first.contents, second.contents, List.map_append, List.append_assoc]
  · rw [block, first.block, List.map_append, List.append_assoc]
  · exact (congrArg (fun x : DevState => { x with txr := { x.txr with tail := (s.device d).txr.tail } }) second.device).trans
      first.device
  · exact (congrArg (fun v : State => { v with dev := s.dev, blk := s.blk }) second.frame).trans first.frame

end State.Sent

theorem sendFrame_ring (present : d < s.dev.length) :
    (s.sendFrame d w).ring ⟨d, .tx⟩ = (s.ring ⟨d, .tx⟩).advance (s.ring ⟨d, .tx⟩).tail := ring_setRing_self _ _ present

theorem sendFrame_block (inRange : s.blockOf d < s.blk.length) : (s.sendFrame d w).block (s.blockOf d) =
    { s.block (s.blockOf d) with mbox := (s.block (s.blockOf d)).mbox ++ [Frame.ofWords w] } :=
  block_setBlock_self _ _ inRange

theorem sendFrame_sent (present : d < s.dev.length) (inRange : s.blockOf d < s.blk.length) (ok : (s.ring ⟨d, .tx⟩).Ok)
    (occupied : (s.ring ⟨d, .tx⟩).isEmpty = false) (read : (s.ring ⟨d, .tx⟩).readSlot (s.ring ⟨d, .tx⟩).tail = .ok w) :
    s.Sent (s.sendFrame d w) d [w] := by
  have allocated := Ring.cap_ne_zero_of_not_empty occupied
  refine ⟨?_, sendFrame_block inRange, ?_, fun e other => otherDevices_setRing (s := s.loadMailbox ..) e other,
    fun c other => block_setBlock_ne _ _ (Ne.symm other), rfl⟩
  · rw [sendFrame_ring present, Ring.contents_advance (ok.head_lt allocated) (ok.tail_lt allocated) occupied, read]
    rfl
  · rw [State.sendFrame, device_setRing_self (s := s.loadMailbox ..) _ present]
    rfl

/-! ## The loop -/

theorem Ring.Ok.count_eq_zero (ok : r.Ok) (empty : r.isEmpty = true) : r.count = 0 := by
  by_cases allocated : r.cap = 0
  · simp [Ring.count, allocated]
  · exact (Ring.isEmpty_iff_count (ok.head_lt allocated) (ok.tail_lt allocated)).1 empty

/-- The transmit loop of device `d` may run: its tables exist and its ring is well formed, the handler has yet to enter, the
controller is in NORMAL, the hardware cannot fail, and `free` mailboxes are free. -/
structure State.MaySend (s : State) (d free : Nat) : Prop where
  present : d < s.dev.length
  inRange : s.blockOf d < s.blk.length
  ok : (s.ring ⟨d, .tx⟩).Ok
  idle : s.handlerPos ⟨d, .tx⟩ = none
  normal : (s.block (s.blockOf d)).hwMode = .normal
  certain : s.cfg.hwTxMayFail = false
  mailboxes : (s.block (s.blockOf d)).mbox.length + free = s.cfg.mboxCount

namespace State.MaySend

variable {free : Nat}

theorem canTransmit (may : s.MaySend d free) : s.canTransmit (s.blockOf d) = true ↔ 0 < free := by
  have mailboxes := may.mailboxes
  simp only [State.canTransmit, may.normal, Bool.and_eq_true, decide_eq_true_eq, and_true]
  omega

/-- A frame sent takes one mailbox. -/
theorem sendFrame (may : s.MaySend d (free + 1)) (occupied : (s.ring ⟨d, .tx⟩).isEmpty = false) :
    (s.sendFrame d w).MaySend d free := by
  have block := sendFrame_block (w := w) may.inRange
  refine ⟨(setRing_dev_length ..).symm ▸ may.present, (setBlock_blk_length ..).symm ▸ may.inRange,
    (sendFrame_ring may.present).symm ▸ may.ok.advance occupied, may.idle, ?_, may.certain, ?_⟩
  · exact (congrArg BlockState.hwMode block).trans may.normal
  · have loaded : ((s.sendFrame d w).block (s.blockOf d)).mbox.length = (s.block (s.blockOf d)).mbox.length + 1 := by
      rw [block, List.length_append, List.length_singleton]
    exact (congrArg (· + free) loaded).trans ((Nat.add_right_comm ..).trans may.mailboxes)

/-- An empty ring, or no free mailbox, leads from the loop's test to the exit in at most four steps. -/
theorem leaves (may : s.MaySend d free) (stops : (s.ring ⟨d, .tx⟩).isEmpty = true ∨ free = 0) : ∃ k ≤ 4, ∀ n,
    execTimes (.irqTx d) (n + k) (s.enterHandler ⟨d, .tx⟩ .loopTest) =
      execTimes (.irqTx d) n (s.enterHandler ⟨d, .tx⟩ .exit) := by
  cases occupied : (s.ring ⟨d, .tx⟩).isEmpty with
  | true => exact ⟨1, by omega, fun n => execTimes_irqTx_empty may.idle occupied⟩
  | false =>
    have full : free = 0 := stops.resolve_left (by simp [occupied])
    obtain ⟨w, read⟩ := may.ok.readSlot_tail occupied
    have blocked : s.canTransmit (s.blockOf d) = false := by simp [← Bool.not_eq_true, may.canTransmit, full]
    exact ⟨4, le_rfl, fun n => execTimes_irqTx_blocked may.idle occupied read blocked⟩

/-- The loop from its test to the exit, by induction over the free mailboxes: six steps for each frame it sends. -/
theorem loop (may : s.MaySend d free) : ∃ ws left k t, s.Sent t d ws ∧ t.MaySend d left ∧
    ws.length = min (s.ring ⟨d, .tx⟩).count free ∧ k ≤ 6 * ws.length + 4 ∧ ∀ n,
      execTimes (.irqTx d) (n + k) (s.enterHandler ⟨d, .tx⟩ .loopTest) =
        execTimes (.irqTx d) n (t.enterHandler ⟨d, .tx⟩ .exit) := by
  induction free generalizing s with
  | zero =>
    obtain ⟨k, bound, run⟩ := may.leaves (.inr rfl)
    exact ⟨[], 0, k, s, .refl s d, may, (Nat.min_zero _).symm, bound, run⟩
  | succ free ih =>
    cases occupied : (s.ring ⟨d, .tx⟩).isEmpty with
    | true =>
      obtain ⟨k, bound, run⟩ := may.leaves (.inl occupied)
      exact ⟨[], free + 1, k, s, .refl s d, may, by simp [may.ok.count_eq_zero occupied], bound, run⟩
    | false =>
      obtain ⟨w, read⟩ := may.ok.readSlot_tail occupied
      have allocated := Ring.cap_ne_zero_of_not_empty occupied
      have counted := Ring.count_advance (may.ok.head_lt allocated) (may.ok.tail_lt allocated) occupied
      rw [← sendFrame_ring (w := w) may.present] at counted
      obtain ⟨ws, left, k, t, sent, after, moved, bound, run⟩ := ih (may.sendFrame (w := w) occupied)
      refine ⟨w :: ws, left, k + 6, t, (sendFrame_sent may.present may.inRange may.ok occupied read).trans sent, after, ?_, ?_,
        fun n => ?_⟩
      · rw [List.length_cons]
        omega
      · rw [List.length_cons]
        omega
      · exact (execTimes_irqTx_turn may.idle occupied read may.certain (may.canTransmit.2 free.succ_pos)).trans (run n)

end State.MaySend

end Machine

open Machine

/-- Settles O44: back-pressure is `execTimes_irqRx_full`, a move is a pop of the FIFO and a push of the ring
(`execTimes_irqRx`). -/
theorem irqRxRun : Obligations.IrqRxRun := by
  intro d s fits inConfig ok idle
  obtain ⟨present, inRange⟩ := fits.device_inRange inConfig
  refine ⟨fun full => ⟨_, execTimes_irqRx_full idle full, device_setDevice_self _ _ present, otherDevices_setDevice s d _, rfl⟩,
    fun f rest room fifo => ⟨_, execTimes_irqRx idle present ok room fifo, ?_⟩⟩
  have allocated := Ring.cap_ne_zero_of_not_full room
  rw [ring_setRing_self _ _ present, device_setRing_self (s := s.popFifo _) _ present]
  refine ⟨?_, Ring.contents_push (ok.head_lt allocated) (ok.tail_lt allocated) room, ok.push room, fun a => Ring.read_push_ne, rfl,
    fun e other => otherDevices_setRing (s := s.popFifo _) e other, fun c other => block_setBlock_ne _ _ (Ne.symm other), rfl⟩
  refine (block_setBlock_self _ _ inRange).trans ?_
  rw [fifo, List.tail_cons]

/-- Settles O45: the entry, the loop (`State.MaySend.loop`), and the exit, which writes `TX_IE`. -/
theorem irqTxRun : Obligations.IrqTxRun := by
  intro d s fits inConfig ok idle normal certain mailboxes
  obtain ⟨present, inRange⟩ := fits.device_inRange inConfig
  have may : s.MaySend d (s.cfg.mboxCount - (s.block (s.blockOf d)).mbox.length) :=
    ⟨present, inRange, ok, idle, normal, certain, Nat.add_sub_cancel' mailboxes⟩
  obtain ⟨ws, left, k, t, sent, after, moved, bound, run⟩ := may.loop
  have written (v : Bool) : (t.setTxIe d v).handlerPos ⟨d, .tx⟩ = none := after.idle
  have enable : (t.device d).txIe = (s.device d).txIe := (congrArg DevState.txIe sent.device :)
  refine ⟨ws, (t.ring ⟨d, .tx⟩).contents, 1 + k + 1,
    t.setTxIe d (if (t.ring ⟨d, .tx⟩).isEmpty then false else (t.device d).txIe), sent.contents, moved, by omega, by omega, ?run,
    sent.block, by rw [ring_setTxIe], ?enable, ?device,
    fun e other => (otherDevices_setDevice t d _ e other).trans (sent.otherDevices e other), sent.otherBlocks, sent.frame⟩
  case run =>
    rw [execTimes_succ (exec_irqTx_entry idle), run,
      execTimes_succ (exec_irqTx_exit (enterHandler_handlerPos after.idle)), enterHandler_setTxIe,
      enterHandler_exitHandler (written _)]
    rfl
  case enable =>
    rw [ring_setTxIe, State.setTxIe, device_setDevice_self _ _ after.present, enable]
  case device =>
    rw [State.setTxIe, device_setDevice_self _ _ after.present]
    exact congrArg (fun x : DevState => { x with txIe := (s.device d).txIe }) sent.device

end Sys2Proof
end

section
/-!
SUPPORT. The steps of `BUS[b]` (spec/45_irq.md R240, R241): each writes the FIFO or the mailboxes of its block and nothing else but
the draws.
-/

namespace Sys2Proof
namespace Machine

variable {s t : State} {b : Nat} {f : Frame} {rest : List Word}

/-- The words of a valid frame are a valid quadruple (R75). -/
theorem Frame.valid_words (valid : f.valid = true) : f.words.valid = true := by
  simp only [Frame.valid, Bool.and_eq_true, Bool.or_eq_true, decide_eq_true_eq] at valid
  obtain ⟨dlc, range⟩ := valid
  have id := f.id.isLt
  have ide := f.ide.bit.toNat_le
  have rtr := f.rtr.bit.toNat_le
  rw [f.words.valid_iff, f.toNat_fw0, f.toNat_fw1, f.ide_fw0]
  refine ⟨by omega, f.dlc.isLt, dlc, fun std => ?_⟩
  have short : f.id.toNat ≤ 0x7FF := range.resolve_left fun ext => by simp [ext, IdType.bit] at std
  omega

theorem setBlock_block (s : State) (b : Nat) : s.setBlock b (s.block b) = s := by
  rcases Nat.lt_or_ge b s.blk.length with inRange | outside
  · simp [State.setBlock, State.block, inRange]
  · simp [State.setBlock, List.set_eq_of_length_le outside]

theorem afterFrame_cfg (s : State) : s.afterFrame.cfg = s.cfg := by simp only [State.afterFrame, afterDraw_cfg]

/-- Leaving a block is writing it as it is. -/
theorem State.BlockSet.refl (s : State) (b : Nat) : s.BlockSet s b (s.block b) :=
  ⟨(congrArg State.blk (setBlock_block s b)).symm, rfl⟩

theorem State.BlockSet.afterDraw {y : BlockState} (set : s.BlockSet t b y) : s.BlockSet t.afterDraw b y := ⟨set.blk, set.frame⟩

theorem State.BlockSet.afterFrame {y : BlockState} (set : s.BlockSet t b y) : s.BlockSet t.afterFrame b y :=
  set.afterDraw.afterDraw.afterDraw.afterDraw

/-- A delivery appends to a FIFO with room; at an overrun it leaves the FIFO or replaces its last frame. -/
theorem deliver_blockSet (s : State) (b : Nat) (f : Frame) : ∃ l,
    s.BlockSet (s.deliver b f) b { s.block b with rxfifo := l } ∧
    (((s.block b).rxfifo.length < s.cfg.rxFifoDepth ∧ l = (s.block b).rxfifo ++ [f]) ∨
     (s.cfg.rxFifoDepth ≤ (s.block b).rxfifo.length ∧
      (l = (s.block b).rxfifo ∨ l = (s.block b).rxfifo.dropLast ++ [f]))) := by
  unfold State.deliver
  split
  case isTrue room => exact ⟨_, ⟨rfl, rfl⟩, .inl ⟨room, rfl⟩⟩
  case isFalse overrun =>
    dsimp only
    split
    · exact ⟨_, ⟨rfl, rfl⟩, .inr ⟨Nat.le_of_not_lt overrun, .inr rfl⟩⟩
    · exact ⟨_, (State.BlockSet.refl s b).afterDraw, .inr ⟨Nat.le_of_not_lt overrun, .inl rfl⟩⟩

/-- An arrival writes the FIFO: as it was, or with a valid accepted frame at its end (R241). -/
theorem busArrive_blockSet (s : State) (b : Nat) : ∃ l,
    s.BlockSet (busArrive b s) b { s.block b with rxfifo := l } ∧
    (l = (s.block b).rxfifo ∨ ∃ f : Frame, f.valid = true ∧ s.accepts b f = true ∧ (s.block b).hwMode = .normal ∧
      (((s.block b).rxfifo.length < s.cfg.rxFifoDepth ∧ l = (s.block b).rxfifo ++ [f]) ∨
       (s.cfg.rxFifoDepth ≤ (s.block b).rxfifo.length ∧ l = (s.block b).rxfifo.dropLast ++ [f]))) := by
  unfold busArrive
  split
  case isFalse => exact ⟨_, .refl s b, .inl rfl⟩
  case isTrue normal =>
    dsimp only
    split
    case isFalse => exact ⟨_, (State.BlockSet.refl s b).afterFrame, .inl rfl⟩
    case isTrue drawn =>
      obtain ⟨valid, accepted⟩ := Bool.and_eq_true_iff.1 drawn
      obtain ⟨l, set, fifo⟩ := deliver_blockSet s.afterFrame b (Frame.ofWords s.drawnFrame)
      refine ⟨l, (State.BlockSet.refl s b).afterFrame.trans (afterFrame_block s b ▸ set), ?_⟩
      rw [afterFrame_block] at fifo
      obtain ⟨room, appended⟩ | ⟨overrun, kept | replaced⟩ := fifo
      · exact .inr ⟨_, Frame.valid_ofWords valid, accepted, normal, .inl ⟨room, appended⟩⟩
      · exact .inl kept
      · exact .inr ⟨_, Frame.valid_ofWords valid, accepted, normal, .inr ⟨overrun, replaced⟩⟩

/-- Any valid accepted frame may arrive: it does where the draws are its words. -/
theorem busArrive_of_tape (valid : f.valid = true) (accepted : s.accepts b f = true) (normal : (s.block b).hwMode = .normal)
    (tape : s.tape = f.words.fw0 :: f.words.fw1 :: f.words.fw2 :: f.words.fw3 :: rest) :
    busArrive b s = s.afterFrame.deliver b f := by
  have drawn : s.drawnFrame = f.words := by simp [State.drawnFrame, State.nextDraw, tape]
  simp only [busArrive, normal, drawn, Frame.ofWords_words, Frame.valid_words valid, accepted, Bool.and_self, if_true]

end Machine

open Machine

/-- Settles O46: a completion is one write of the block, an arrival is `busArrive_blockSet`. -/
theorem busSteps : Obligations.BusSteps := by
  intro b s inRange
  have idle (mode : (s.block b).hwMode ≠ .normal) : busComplete b s = s ∧ busArrive b s = s := ⟨if_neg mode, if_neg mode⟩
  obtain ⟨l, set, fifo⟩ := busArrive_blockSet s b
  have block := set.block inRange
  refine ⟨fun normal => ?complete, idle, ?others, ?frame, otherBlocks_of_blk_set set.blk, set.frame, by rw [block], ?arrive,
    fun f rest valid accepted normal room tape => ?tape⟩
  case complete =>
    rw [busComplete, if_pos normal]
    exact block_setBlock_self _ _ inRange
  case others =>
    intro c other
    unfold busComplete
    split
    · exact block_setBlock_ne _ _ (Ne.symm other)
    · rfl
  case frame =>
    unfold busComplete
    split <;> rfl
  case arrive =>
    rw [block]
    refine fifo.imp_left fun kept => ?_
    rw [set.blk, kept]
    exact congrArg State.blk (setBlock_block s b)
  case tape =>
    rw [← afterFrame_block, ← afterFrame_cfg s] at room
    rw [busArrive_of_tape valid accepted normal tape, State.deliver, if_pos room, block_setBlock_self (s := s.afterFrame) _ inRange,
      afterFrame_block]

end Sys2Proof
end

section
/-!
SUPPORT. The command port (spec/10_state.md R40, spec/45_irq.md R231, spec/60_exceptions.md R260): what a step leaves of the host's
side of the state, and that a handler's step is the same whatever the port holds.
-/

namespace Sys2Proof
namespace Machine

/-- What no step of an instruction writes before `end(code)`: the configuration, the registers of the command port, the host's
program and the schedule. -/
structure PortView where
  cfg : Config
  cmd : Word
  code : StatusCode
  arg : Words8
  res : Words8
  host : List HostOp
  readData : Word
  sched : List Event

def State.portView (s : State) : PortView := ⟨s.cfg, s.cmd, s.code, s.arg, s.res, s.host, s.readData, s.sched⟩

/-- The step leaves the view, or it ends the command once all else is done. -/
inductive State.PortStep (s : State) : State → Prop
  | kept {t : State} (h : t.portView = s.portView) : s.PortStep t
  | finish {u : State} {c : StatusCode} {l : List Word} (h : u.portView = s.portView) : s.PortStep (u.finish c l)

variable {s t u : State} {i : Instr} {d k n b : Nat} {a : Agent} {ref : RingRef} {ring : RingSel} {f : Frame} {p : Pos}
  {x : Option Frame} {c : StatusCode} {l : List Word}

/-! ## The operations leave the view -/

@[simp] theorem goto_portView (s : State) (a : Agent) (p : Pos) : (s.goto a p).portView = s.portView := by cases a <;> rfl

@[simp] theorem raise_portView (s : State) (a : Agent) (f : ModelFault) : (s.raise a f).portView = s.portView := by
  simp [State.portView]

theorem configure_portView {pat msk : Word} {mode scale en : Bool} :
    (s.configure b k pat msk mode scale en).portView = s.portView := by
  simp [State.portView]

theorem setActive_portView {v : Bool} : (s.setActive b k v).portView = s.portView := by simp [State.portView]

theorem clearOwned_portView : (s.clearOwned d).portView = s.portView := by simp [State.portView]

theorem pushCheckStep_portView : (pushCheckStep a ref f p s).portView = s.portView := by
  rw [pushCheckStep_eq, goto_portView]

theorem pushFillStep_portView : (pushFillStep a ref n f s).portView = s.portView := by
  rcases pushFillStep_cases a ref n f s with ⟨r, _, e⟩ | e <;> rw [e]
  · exact goto_portView _ a _
  · exact raise_portView s a _

theorem pushPublishStep_portView : (pushPublishStep a ref n p s).portView = s.portView := goto_portView _ a _

theorem peekCheckStep_portView : (peekCheckStep a ref p s).portView = s.portView := by
  rw [peekCheckStep_eq, goto_portView]

theorem peekReadStep_portView {after : Frame → Pos} : (peekReadStep a ref n after s).portView = s.portView := by
  rcases peekReadStep_cases a ref n after s with ⟨w, _, e⟩ | ⟨fault, e⟩ <;> rw [e]
  · exact goto_portView s a _
  · exact raise_portView s a _

theorem popCheckStep_portView : (popCheckStep a ref x p s).portView = s.portView := by
  rw [popCheckStep_eq, goto_portView]

theorem popAdvanceStep_portView : (popAdvanceStep a ref n p s).portView = s.portView := goto_portView _ a _

theorem hwTransmit_portView {sent : Bool} (e : s.hwTransmit b f = (sent, t)) : t.portView = s.portView := by
  rcases hwTransmit_cases s b f with ⟨_, _, h⟩ | ⟨_, _, _, h⟩ | ⟨_, _, _, h⟩ | ⟨_, h⟩ <;> cases h ▸ e <;> rfl

theorem hwInit_portView {base remap : Nat} {w : Word} {ok : Bool} (e : s.hwInit b base remap w = (ok, t)) :
    t.portView = s.portView := by
  cases h : drawnBool s.nextDraw
  · cases hwInit_of_false b base remap w h ▸ e
    rfl
  · cases hwInit_of_true b base remap w h ▸ e
    rfl

theorem hwSetMode_portView {m : HwMode} {ok : Bool} (e : s.hwSetMode b m = (ok, t)) : t.portView = s.portView := by
  cases h : drawnBool s.nextDraw
  · cases hwSetMode_of_false b m h ▸ e
    rfl
  · cases hwSetMode_of_true b m h ▸ e
    rfl

theorem loseTiming_portView : (s.loseTiming d).portView = s.portView := rfl

theorem startDevice_portView {timing baud : Word} : (s.startDevice d timing baud).portView = s.portView := by
  simp [State.portView, State.startDevice]

theorem releaseDevice_portView : (s.releaseDevice d).portView = s.portView := by simp [State.portView, State.releaseDevice]

/-! ## Steps that end a command, and the checks -/

namespace State.PortStep

/-- The command ends with a status and its results, and no other effect. -/
theorem ended : s.PortStep (s.finish c l) := finish rfl

theorem goto : s.PortStep (s.goto a p) := .kept (goto_portView s a p)

protected theorem ite {c : Prop} [Decidable c] (h : s.PortStep t) (g : s.PortStep u) : s.PortStep (if c then t else u) := by
  split
  · exact h
  · exact g

theorem onDevice (h : s.PortStep t) : s.PortStep (onDevice d s t) := .ite h ended

theorem whenRunning (h : s.PortStep t) : s.PortStep (whenRunning d s t) := .onDevice (.ite h ended)

theorem pre (h : s.PortStep t) : s.PortStep (pre d k s t) := .whenRunning (.ite h ended)

theorem of_single (h : s.PortStep u) (e : single s u = .next t) : s.PortStep t := (single_eq_next.1 e).2 ▸ h

theorem programBank {pat msk : Word} {mode scale en : Bool} : s.PortStep (programBank d k pat msk mode scale en s) :=
  finish configure_portView

theorem finishRead : s.PortStep (finishRead d x s) := by
  rw [finishRead_eq]
  exact finish rfl

/-- The transmit attempt, then the next position. -/
theorem transmit {p : Pos} (q : State → Pos) : s.PortStep (match s.hwTransmit b f with
    | (true, u) => u.goto a p
    | (false, u) => u.goto a (q u)) := by
  split
  case h_1 e => exact .kept ((goto_portView _ a p).trans (hwTransmit_portView e))
  case h_2 e => exact .kept ((goto_portView _ a _).trans (hwTransmit_portView e))

theorem reprogram {timing baud : Word} : s.PortStep (s.reprogram d timing baud) := by
  unfold State.reprogram
  split
  case h_1 e => exact finish (loseTiming_portView.trans (hwSetMode_portView e))
  case h_2 e =>
    split
    case h_1 e' => exact finish (loseTiming_portView.trans ((hwSetMode_portView e').trans (hwSetMode_portView e)))
    case h_2 v e' => exact finish (u := v.setDevice d _) ((hwSetMode_portView e').trans (hwSetMode_portView e))

end State.PortStep

open State.PortStep (finish ended goto)

/-! ## Commands of several steps -/

theorem execRbIsEmpty_portStep (e : execRbIsEmpty d ring s = .next t) : s.PortStep t := by
  unfold execRbIsEmpty at e
  split at e <;> cases e
  · exact .whenRunning goto
  · exact ended

theorem execRbIsFull_portStep (e : execRbIsFull d ring s = .next t) : s.PortStep t := by
  unfold execRbIsFull at e
  split at e <;> cases e
  · exact .whenRunning goto
  · exact ended

theorem execRbCount_portStep (e : execRbCount d ring s = .next t) : s.PortStep t := by
  unfold execRbCount at e
  split at e <;> cases e
  · exact .whenRunning goto
  · exact ended

theorem execRbPush_portStep (e : execRbPush d ring s = .next t) : s.PortStep t := by
  unfold execRbPush at e
  split at e <;> cases e
  · exact .whenRunning (.ite ended (.ite goto ended))
  · exact .kept pushCheckStep_portView
  · exact .kept pushFillStep_portView
  · exact .kept pushPublishStep_portView
  · exact ended

theorem execRbPeek_portStep (e : execRbPeek d ring s = .next t) : s.PortStep t := by
  unfold execRbPeek at e
  split at e <;> cases e
  · exact .whenRunning (.ite ended goto)
  · exact .kept peekCheckStep_portView
  · exact .kept peekReadStep_portView
  · exact ended
  · exact ended

theorem execRbPop_portStep (e : execRbPop d ring s = .next t) : s.PortStep t := by
  unfold execRbPop at e
  split at e <;> cases e
  · exact .whenRunning (.ite ended goto)
  · exact .kept popCheckStep_portView
  · exact .kept popAdvanceStep_portView
  · exact ended

theorem execWrite_portStep (e : execWrite d s = .next t) : s.PortStep t := by
  unfold execWrite at e
  split at e <;> cases e
  · exact .whenRunning (.ite goto ended)
  · exact goto
  · exact .transmit fun u => if (u.ring ⟨d, .tx⟩).cap = 0 then .noQueue else .pushCheck _
  · exact ended
  · exact ended
  · exact .kept pushCheckStep_portView
  · exact .kept pushFillStep_portView
  · exact .kept pushPublishStep_portView
  · exact finish rfl
  · exact ended

theorem execPeek_portStep (e : execPeek d s = .next t) : s.PortStep t := by
  unfold execPeek at e
  split at e <;> cases e
  · exact .whenRunning goto
  · exact .kept rfl
  · exact .kept peekCheckStep_portView
  · exact .kept peekReadStep_portView
  · exact .finishRead

theorem execRead_portStep (e : execRead d s = .next t) : s.PortStep t := by
  unfold execRead at e
  split at e <;> cases e
  · exact .whenRunning goto
  · exact .kept rfl
  · exact .kept peekCheckStep_portView
  · exact .kept peekReadStep_portView
  · exact .kept popCheckStep_portView
  · exact .kept popAdvanceStep_portView
  · exact .finishRead

/-! ## The engine handlers -/

theorem execIrqRx_portStep (e : execIrqRx d s = .next t) : s.PortStep t := by
  unfold execIrqRx at e
  dsimp only at e
  split at e <;> cases e
  · exact .kept rfl
  · exact .kept rfl
  · split
    · exact .kept rfl
    · exact .kept (raise_portView ..)
  · exact .kept pushCheckStep_portView
  · exact .kept pushFillStep_portView
  · exact .kept pushPublishStep_portView
  · exact .kept rfl

theorem execIrqTx_portStep (e : execIrqTx d s = .next t) : s.PortStep t := by
  unfold execIrqTx at e
  dsimp only at e
  split at e <;> cases e
  · exact .kept rfl
  · exact goto
  · exact .ite (.kept (raise_portView ..)) goto
  · exact .kept peekReadStep_portView
  · exact .transmit fun _ => .exit
  · exact .kept popCheckStep_portView
  · exact .kept popAdvanceStep_portView
  · split <;> exact .kept rfl

/-! ## Every instruction -/

theorem execDevBegin_portStep (e : execDevBegin d s = .next t) : s.PortStep t := by
  refine .of_single (.onDevice (.ite ended ?_)) e
  rw [beginSetup_eq]
  dsimp only
  split
  · exact ended
  · split
    case h_1 init => exact finish (hwInit_portView init)
    case h_2 init => exact finish (startDevice_portView.trans (hwInit_portView init))

/-- A step of an instruction writes of the port the status and the results alone, and those only where it ends the command. -/
theorem exec_portStep (e : exec i s = .next t) : s.PortStep t := by
  cases i with
  | rbIsEmpty d ring => exact execRbIsEmpty_portStep e
  | rbIsFull d ring => exact execRbIsFull_portStep e
  | rbCount d ring => exact execRbCount_portStep e
  | rbPush d ring => exact execRbPush_portStep e
  | rbPeek d ring => exact execRbPeek_portStep e
  | rbPop d ring => exact execRbPop_portStep e
  | btSolve =>
    refine .of_single ?_ e
    split <;> exact ended
  | fltConfigure d k => exact .of_single (.pre (.ite ended .programBank)) e
  | fltMask32Std d k | fltMask32Ext d k | fltMask16 d k => exact .of_single (.pre (.ite .programBank ended)) e
  | fltList32Std d k | fltList32Ext d k | fltList16 d k =>
    exact .of_single (.pre (.ite (.ite ended .programBank) ended)) e
  | fltAcceptAll d => exact .of_single (.whenRunning (.ite ended (.ite ended (finish configure_portView)))) e
  | fltEnable d k => exact .of_single (.pre (.ite (finish setActive_portView) ended)) e
  | fltDisable d k => exact .of_single (.pre (finish setActive_portView)) e
  | fltClearAll d => exact .of_single (.whenRunning (finish clearOwned_portView)) e
  | fltRead d k => exact .of_single (.pre ended) e
  | devOpen d => exact .of_single (.onDevice (.ite ended (.ite ended (finish (u := s.claimDevice d _ _) rfl)))) e
  | devBegin d => exact execDevBegin_portStep e
  | setBaudrate d =>
    refine .of_single (.whenRunning ?_) e
    split
    · exact ended
    · exact .reprogram
  | devClose d => exact .of_single (.onDevice (.ite ended (finish releaseDevice_portView))) e
  | write d => exact execWrite_portStep e
  | availableForWrite d | available d => exact .of_single (.whenRunning ended) e
  | peek d => exact execPeek_portStep e
  | read d => exact execRead_portStep e
  | getError d => exact .of_single (.whenRunning (finish (u := s.afterDraw) rfl)) e
  | irqRx d => exact execIrqRx_portStep e
  | irqTx d => exact execIrqTx_portStep e

/-! ## Handlers do not read the port -/

variable {cmd : Word} {code : StatusCode} {arg res : Words8} {cur : Option Pos} {g : Handler}

theorem raise_withPort {fault : ModelFault} :
    (s.withPort cmd code arg res cur).raise a fault = (s.raise a fault).withPort cmd code arg res cur := by
  by_cases known : ⟨fault, a⟩ ∈ s.faults
  · rw [State.raise, State.raise, if_pos known]
    exact if_pos known
  · rw [State.raise, State.raise, if_neg known]
    exact if_neg known

theorem pushFillStep_withPort : pushFillStep (.engine g) ref n f (s.withPort cmd code arg res cur) =
    (pushFillStep (.engine g) ref n f s).withPort cmd code arg res cur := by
  have same : (s.withPort cmd code arg res cur).ring ref = s.ring ref := rfl
  rw [pushFillStep, pushFillStep, same]
  cases (s.ring ref).fill n f.words with
  | none => exact raise_withPort
  | some r => rfl

theorem peekReadStep_withPort {after : Frame → Pos} :
    peekReadStep (.engine g) ref n after (s.withPort cmd code arg res cur) =
      (peekReadStep (.engine g) ref n after s).withPort cmd code arg res cur := by
  have same : (s.withPort cmd code arg res cur).ring ref = s.ring ref := rfl
  rw [peekReadStep, peekReadStep, same]
  cases (s.ring ref).readSlot n with
  | ok w => rfl
  | error fault => cases fault <;> exact raise_withPort

/-- A transmit attempt takes the same course. -/
theorem hwTransmit_withPort : (s.withPort cmd code arg res cur).hwTransmit b f =
    ((s.hwTransmit b f).1, (s.hwTransmit b f).2.withPort cmd code arg res cur) := by
  have room : (s.withPort cmd code arg res cur).canTransmit b = s.canTransmit b := rfl
  have draw : (s.withPort cmd code arg res cur).nextDraw = s.nextDraw := rfl
  have cfg : (s.withPort cmd code arg res cur).cfg = s.cfg := rfl
  rw [State.hwTransmit, State.hwTransmit, room, draw, cfg]
  cases s.canTransmit b with
  | false => rfl
  | true =>
    cases s.cfg.hwTxMayFail with
    | false => rfl
    | true => cases drawnBool s.nextDraw <;> rfl

theorem execIrqRx_withPort (e : execIrqRx d s = .next t) :
    execIrqRx d (s.withPort cmd code arg res cur) = .next (t.withPort cmd code arg res cur) := by
  have same : (s.withPort cmd code arg res cur).handlerPos ⟨d, .rx⟩ = s.handlerPos ⟨d, .rx⟩ := rfl
  simp only [execIrqRx, same] at e ⊢
  revert e
  cases s.handlerPos ⟨d, .rx⟩ with
  | none =>
    rintro ⟨⟩
    rfl
  | some p =>
    cases p <;> rintro ⟨⟩
    case pushFill => exact congrArg _ pushFillStep_withPort
    case receive =>
      have fifo : (s.withPort cmd code arg res cur).block ((s.withPort cmd code arg res cur).blockOf d) =
          s.block (s.blockOf d) := rfl
      rw [fifo]
      cases (s.block (s.blockOf d)).rxfifo with
      | nil => exact congrArg _ raise_withPort
      | cons f rest => rfl
    case pushCheck =>
      simp only [pushCheckStep_eq]
      rfl
    all_goals rfl

theorem execIrqTx_withPort (e : execIrqTx d s = .next t) :
    execIrqTx d (s.withPort cmd code arg res cur) = .next (t.withPort cmd code arg res cur) := by
  have same : (s.withPort cmd code arg res cur).handlerPos ⟨d, .tx⟩ = s.handlerPos ⟨d, .tx⟩ := rfl
  have ring : (s.withPort cmd code arg res cur).ring ⟨d, .tx⟩ = s.ring ⟨d, .tx⟩ := rfl
  have block : (s.withPort cmd code arg res cur).blockOf d = s.blockOf d := rfl
  simp only [execIrqTx, same, ring, block] at e ⊢
  revert e
  cases s.handlerPos ⟨d, .tx⟩ with
  | none =>
    rintro ⟨⟩
    rfl
  | some p =>
    cases p <;> rintro ⟨⟩
    case peekCheck =>
      dsimp only
      split
      · exact congrArg _ raise_withPort
      · rfl
    case peekRead => exact congrArg _ peekReadStep_withPort
    case transmit f =>
      dsimp only
      rw [hwTransmit_withPort]
      rcases s.hwTransmit (s.blockOf d) f with ⟨sent, u⟩
      cases sent <;> rfl
    case popCheck =>
      simp only [popCheckStep_eq]
      rfl
    case exit =>
      dsimp only
      split <;> rfl
    all_goals rfl

/-- A step of a handler is the same whatever the port holds (R231). -/
theorem exec_handler_withPort {h : Handler} (e : exec h.instr s = .next t) :
    exec h.instr (s.withPort cmd code arg res cur) = .next (t.withPort cmd code arg res cur) := by
  obtain ⟨d, kind⟩ := h
  cases kind with
  | rx => exact execIrqRx_withPort e
  | tx => exact execIrqTx_withPort e

/-- So it leaves the port, as it would find the same one. -/
theorem exec_handler_port {h : Handler} (e : exec h.instr s = .next t) : t.code = s.code ∧ t.res = s.res ∧ t.cur = s.cur := by
  have own : s.withPort s.cmd s.code s.arg s.res s.cur = s := rfl
  have again := exec_handler_withPort (cmd := s.cmd) (code := s.code) (arg := s.arg) (res := s.res) (cur := s.cur) e
  rw [own, e] at again
  have same : t = t.withPort s.cmd s.code s.arg s.res s.cur := by simpa using again
  exact ⟨(congrArg State.code same :), (congrArg State.res same :), (congrArg State.cur same :)⟩

theorem handler_of_irq (handler : i.format = .irq) : ∃ h : Handler, i = h.instr := by
  cases i with
  | irqRx d => exact ⟨⟨d, .rx⟩, rfl⟩
  | irqTx d => exact ⟨⟨d, .tx⟩, rfl⟩
  | _ => cases handler

end Machine

open Machine

/-- Settles O50: `exec_portStep` for the commands, and for the handlers `exec_handler_withPort`. -/
theorem commandPortOwner : Obligations.CommandPortOwner := by
  refine ⟨fun i s t e => ?_, fun h s t cmd code arg res cur => exec_handler_withPort⟩
  have irq (handler : i.format = .irq) : t.code = s.code ∧ t.res = s.res ∧ t.cur = s.cur := by
    obtain ⟨h, rfl⟩ := handler_of_irq handler
    exact exec_handler_port e
  cases exec_portStep e with
  | kept view =>
    exact ⟨congrArg PortView.cmd view, congrArg PortView.arg view, congrArg PortView.cfg view, congrArg PortView.host view,
      congrArg PortView.readData view, congrArg PortView.sched view,
      fun _ => ⟨congrArg PortView.code view, congrArg PortView.res view⟩, irq⟩
  | finish view =>
    exact ⟨congrArg PortView.cmd view, congrArg PortView.arg view, congrArg PortView.cfg view, congrArg PortView.host view,
      congrArg PortView.readData view, congrArg PortView.sched view, fun busy => absurd rfl busy, irq⟩

end Sys2Proof
end

section
/-!
SUPPORT. The order of `ACTIVE` (spec/60_exceptions.md R269, R270, spec/45_irq.md R231): a command leaves it, a step of a handler
removes handlers at most, and an entry appends the handler that enters.
-/

namespace Sys2Proof
namespace Machine

variable {s t u : State} {i : Instr} {d k n b : Nat} {a : Agent} {ref : RingRef} {ring : RingSel} {f : Frame} {p : Pos}
  {x : Option Frame} {g : Handler} {ev : Event}

/-- The handlers of `ACTIVE`, in order of entry. -/
def State.order (s : State) : List Handler := s.active.map Running.handler

theorem order_of_active (active : t.active = s.active) : t.order = s.order := congrArg (List.map Running.handler) active

/-! ## The shared steps leave the order -/

@[simp] theorem goto_order (s : State) (a : Agent) (p : Pos) : (s.goto a p).order = s.order := by
  cases a with
  | app => rfl
  | engine h =>
    show List.map Running.handler (s.active.map _) = _
    rw [List.map_map]
    refine List.map_congr_left fun r _ => ?_
    show (if r.handler = h then { r with pos := p } else r).handler = r.handler
    split <;> rfl

@[simp] theorem raise_order (s : State) (a : Agent) (f : ModelFault) : (s.raise a f).order = s.order :=
  order_of_active (raise_active s a f)

theorem ite_order {c : Prop} [Decidable c] (h : t.order = s.order) (g : u.order = s.order) :
    (if c then t else u).order = s.order := by
  split
  · exact h
  · exact g

theorem onDevice_order (h : t.order = s.order) : (onDevice d s t).order = s.order := ite_order h rfl

theorem whenRunning_order (h : t.order = s.order) : (whenRunning d s t).order = s.order := onDevice_order (ite_order h rfl)

theorem pre_order (h : t.order = s.order) : (pre d k s t).order = s.order := whenRunning_order (ite_order h rfl)

theorem order_of_single (e : single s u = .next t) (h : u.order = s.order) : t.order = s.order := (single_eq_next.1 e).2 ▸ h

theorem pushCheckStep_order : (pushCheckStep a ref f p s).order = s.order := by rw [pushCheckStep_eq, goto_order]

theorem pushFillStep_order : (pushFillStep a ref n f s).order = s.order := by
  rcases pushFillStep_cases a ref n f s with ⟨r, _, e⟩ | e <;> rw [e]
  · exact goto_order _ a _
  · exact raise_order s a _

theorem pushPublishStep_order : (pushPublishStep a ref n p s).order = s.order := goto_order _ a _

theorem peekCheckStep_order : (peekCheckStep a ref p s).order = s.order := by rw [peekCheckStep_eq, goto_order]

theorem peekReadStep_order {after : Frame → Pos} : (peekReadStep a ref n after s).order = s.order := by
  rcases peekReadStep_cases a ref n after s with ⟨w, _, e⟩ | ⟨fault, e⟩ <;> rw [e]
  · exact goto_order s a _
  · exact raise_order s a _

theorem popCheckStep_order : (popCheckStep a ref x p s).order = s.order := by rw [popCheckStep_eq, goto_order]

theorem popAdvanceStep_order : (popAdvanceStep a ref n p s).order = s.order := goto_order _ a _

/-- The transmit attempt, then the next position. -/
theorem transmit_order {p : Pos} (q : State → Pos) : (match s.hwTransmit b f with
    | (true, u) => u.goto a p
    | (false, u) => u.goto a (q u)).order = s.order := by
  rcases hwTransmit_cases s b f with ⟨_, _, e⟩ | ⟨_, _, _, e⟩ | ⟨_, _, _, e⟩ | ⟨_, e⟩ <;> rw [e] <;> exact goto_order _ a _

/-! ## Commands of several steps -/

theorem execRbPush_order (e : execRbPush d ring s = .next t) : t.order = s.order := by
  unfold execRbPush at e
  split at e <;> cases e
  · exact whenRunning_order (ite_order rfl (ite_order rfl rfl))
  · exact pushCheckStep_order
  · exact pushFillStep_order
  · exact pushPublishStep_order
  · rfl

theorem execRbPeek_order (e : execRbPeek d ring s = .next t) : t.order = s.order := by
  unfold execRbPeek at e
  split at e <;> cases e
  · exact whenRunning_order (ite_order rfl rfl)
  · exact peekCheckStep_order
  · exact peekReadStep_order
  · rfl
  · rfl

theorem execRbPop_order (e : execRbPop d ring s = .next t) : t.order = s.order := by
  unfold execRbPop at e
  split at e <;> cases e
  · exact whenRunning_order (ite_order rfl rfl)
  · exact popCheckStep_order
  · exact popAdvanceStep_order
  · rfl

theorem execWrite_order (e : execWrite d s = .next t) : t.order = s.order := by
  unfold execWrite at e
  split at e <;> cases e
  · exact whenRunning_order (ite_order rfl rfl)
  · rfl
  · exact transmit_order fun u => if (u.ring ⟨d, .tx⟩).cap = 0 then .noQueue else .pushCheck _
  · rfl
  · rfl
  · exact pushCheckStep_order
  · exact pushFillStep_order
  · exact pushPublishStep_order
  · rfl
  · rfl

theorem finishRead_order : (finishRead d x s).order = s.order := by
  rw [finishRead_eq]
  rfl

theorem execPeek_order (e : execPeek d s = .next t) : t.order = s.order := by
  unfold execPeek at e
  split at e <;> cases e
  · exact whenRunning_order rfl
  · rfl
  · exact peekCheckStep_order
  · exact peekReadStep_order
  · exact finishRead_order

theorem execRead_order (e : execRead d s = .next t) : t.order = s.order := by
  unfold execRead at e
  split at e <;> cases e
  · exact whenRunning_order rfl
  · rfl
  · exact peekCheckStep_order
  · exact peekReadStep_order
  · exact popCheckStep_order
  · exact popAdvanceStep_order
  · exact finishRead_order

/-! ## `BEGIN`, `SET_BAUDRATE`, `CLOSE` -/

/-- The drawn answer of `hw_init` writes the block's entry alone. -/
theorem hwInit_blockSet {base remap : Nat} {w : Word} {ok : Bool} (e : s.hwInit b base remap w = (ok, t)) :
    ∃ y, s.BlockSet t b y := by
  cases drawn : drawnBool s.nextDraw
  · cases hwInit_of_false b base remap w drawn ▸ e
    exact ⟨_, rfl, rfl⟩
  · cases hwInit_of_true b base remap w drawn ▸ e
    exact ⟨_, rfl, rfl⟩

/-- So does the drawn answer of `hw_mode`. -/
theorem hwSetMode_blockSet {m : HwMode} {ok : Bool} (e : s.hwSetMode b m = (ok, t)) : ∃ y, s.BlockSet t b y := by
  cases drawn : drawnBool s.nextDraw
  · cases hwSetMode_of_false b m drawn ▸ e
    exact ⟨_, rfl, rfl⟩
  · cases hwSetMode_of_true b m drawn ▸ e
    exact ⟨_, rfl, rfl⟩

/-- `SET_BAUDRATE` past its checks ends `OK`, or with `ERR_HW` where a mode change fails (R194); it writes one block's entry and the
timing of its device. -/
theorem reprogram_ends_or_fails (s : State) (d : Nat) (timing baud : Word) : ∃ v y, s.BlockSet v (s.blockOf d) y ∧ ∃ w w' valid,
    (s.reprogram d timing baud =
      (v.setDevice d { v.device d with timing := w, baud := w', baudValid := valid }).finish .ok [timing] ∨
     s.reprogram d timing baud =
      (v.setDevice d { v.device d with timing := w, baud := w', baudValid := valid }).finish .errHw []) := by
  unfold State.reprogram
  split
  case h_1 u init =>
    obtain ⟨y, set⟩ := hwSetMode_blockSet init
    exact ⟨_, _, set.afterDraw.afterDraw, _, _, _, .inr rfl⟩
  case h_2 u init =>
    obtain ⟨y, set⟩ := hwSetMode_blockSet init
    split
    case h_1 v normal =>
      obtain ⟨y', set'⟩ := hwSetMode_blockSet normal
      exact ⟨_, _, (set.trans set').afterDraw.afterDraw, _, _, _, .inr rfl⟩
    case h_2 v normal =>
      obtain ⟨y', set'⟩ := hwSetMode_blockSet normal
      exact ⟨_, _, set.trans set', _, _, _, .inl rfl⟩

theorem reprogram_order (s : State) (d : Nat) (timing baud : Word) : (s.reprogram d timing baud).order = s.order := by
  obtain ⟨v, y, set, w, w', valid, e | e⟩ := reprogram_ends_or_fails s d timing baud <;> rw [e] <;>
    exact order_of_active set.active

theorem startDevice_order {timing baud : Word} : (s.startDevice d timing baud).order = s.order :=
  order_of_active (congrArg State.active startDevice_frame :)

theorem releaseDevice_order : (s.releaseDevice d).order = s.order :=
  order_of_active (congrArg State.active releaseDevice_frame :)

theorem execDevBegin_order (e : execDevBegin d s = .next t) : t.order = s.order := by
  refine order_of_single e (onDevice_order (ite_order rfl ?_))
  rw [beginSetup_eq]
  dsimp only
  split
  · rfl
  · split
    case h_1 init =>
      obtain ⟨y, set⟩ := hwInit_blockSet init
      exact order_of_active set.active
    case h_2 init =>
      obtain ⟨y, set⟩ := hwInit_blockSet init
      exact startDevice_order.trans (order_of_active set.active)

/-! ## Every instruction -/

/-- A step of a command enters and leaves no handler. -/
theorem exec_command_order (command : i.format ≠ .irq) (e : exec i s = .next t) : t.order = s.order := by
  cases i with
  | rbIsEmpty d ring | rbIsFull d ring | rbCount d ring =>
    simp only [exec, execRbIsEmpty, execRbIsFull, execRbCount] at e
    split at e <;> cases e
    · exact whenRunning_order rfl
    · rfl
  | rbPush d ring => exact execRbPush_order e
  | rbPeek d ring => exact execRbPeek_order e
  | rbPop d ring => exact execRbPop_order e
  | btSolve =>
    refine order_of_single e ?_
    split <;> rfl
  | fltConfigure d k | fltMask32Std d k | fltMask32Ext d k | fltMask16 d k | fltEnable d k =>
    exact order_of_single e (pre_order (ite_order rfl rfl))
  | fltList32Std d k | fltList32Ext d k | fltList16 d k =>
    exact order_of_single e (pre_order (ite_order (ite_order rfl rfl) rfl))
  | fltAcceptAll d => exact order_of_single e (whenRunning_order (ite_order rfl (ite_order rfl rfl)))
  | fltDisable d k | fltRead d k => exact order_of_single e (pre_order rfl)
  | devOpen d => exact order_of_single e (onDevice_order (ite_order rfl (ite_order rfl rfl)))
  | devBegin d => exact execDevBegin_order e
  | setBaudrate d =>
    refine order_of_single e (whenRunning_order ?_)
    split
    · rfl
    · exact reprogram_order ..
  | devClose d => exact order_of_single e (onDevice_order (ite_order rfl releaseDevice_order))
  | write d => exact execWrite_order e
  | fltClearAll d | availableForWrite d | available d | getError d => exact order_of_single e (whenRunning_order rfl)
  | peek d => exact execPeek_order e
  | read d => exact execRead_order e
  | irqRx d | irqTx d => exact absurd rfl command

/-- The step leaves the order, or handlers leave `ACTIVE`, or handler `g`, which was not in it, enters last. -/
inductive State.OrderStep (s t : State) (g : Handler) : Prop
  | later (h : t.order.Sublist s.order)
  | enters (inactive : s.isActive g = false) (h : t.order = s.order ++ [g])

theorem State.OrderStep.kept (h : t.order = s.order) : s.OrderStep t g := .later (h ▸ List.Sublist.refl _)

theorem State.OrderStep.exit (active : u.active = s.active) : s.OrderStep (u.exitHandler g) g := by
  have left : (u.exitHandler g).order.Sublist u.order := List.filter_sublist.map _
  exact .later (order_of_active active ▸ left)

theorem enterHandler_orderStep (entry : s.handlerPos g = none) (p : Pos) : s.OrderStep (s.enterHandler g p) g := by
  refine .enters (Bool.eq_false_iff.2 fun active => ?_) List.map_append
  simp [isActive_iff_handlerPos, entry] at active

theorem execIrqRx_orderStep (e : execIrqRx d s = .next t) : s.OrderStep t ⟨d, .rx⟩ := by
  unfold execIrqRx at e
  dsimp only at e
  split at e <;> cases e
  case h_1 entry => exact enterHandler_orderStep entry _
  case h_2 => exact .exit rfl
  case h_3 =>
    split
    · exact .kept (goto_order ..)
    · exact .kept (raise_order ..)
  case h_4 => exact .kept pushCheckStep_order
  case h_5 => exact .kept pushFillStep_order
  case h_6 => exact .kept pushPublishStep_order
  case h_7 => exact .exit rfl

theorem execIrqTx_orderStep (e : execIrqTx d s = .next t) : s.OrderStep t ⟨d, .tx⟩ := by
  unfold execIrqTx at e
  dsimp only at e
  split at e <;> cases e
  case h_1 entry => exact enterHandler_orderStep entry _
  case h_2 => exact .kept (goto_order ..)
  case h_3 => exact .kept (ite_order (raise_order ..) (goto_order ..))
  case h_4 => exact .kept peekReadStep_order
  case h_5 => exact .kept (transmit_order fun _ => .exit)
  case h_6 => exact .kept popCheckStep_order
  case h_7 => exact .kept popAdvanceStep_order
  case h_8 => split <;> exact .exit rfl

theorem exec_handler_orderStep (e : exec g.instr s = .next t) : s.OrderStep t g := by
  obtain ⟨d, kind⟩ := g
  cases kind with
  | rx => exact execIrqRx_orderStep e
  | tx => exact execIrqTx_orderStep e

/-! ## Every event -/

theorem portAccess_order {access : PortAccess} (e : portAccess access s = .next t) : t.order = s.order := by
  rcases portAccess_cases access s with h | h | ⟨u, _, stored, h⟩ | ⟨v, _, _, h⟩ <;> cases h.symm.trans e
  · exact raise_order ..
  · rcases portWrite_cases s (access.addr - s.cfg.canqBase) access.value with w | ⟨_, _, w⟩ | ⟨_, _, _, w⟩ <;>
      cases w.symm.trans stored <;> rfl
  · rfl

theorem hostStep_order (e : hostStep s = .next t) : t.order = s.order := by
  unfold hostStep at e
  split at e
  case h_1 =>
    cases e
    rfl
  case h_2 rest _ => exact portAccess_order (s := { s with host := rest }) e
  case h_3 =>
    cases e
    rfl

theorem commandStep_order (e : commandStep s = .next t) : t.order = s.order := by
  unfold commandStep at e
  split at e
  case h_1 word => exact exec_command_order (decode_ne_irq word) e
  case h_2 =>
    cases e
    rfl

/-- An event that may be chosen leaves the order but for handlers that leave, or it enters a handler more urgent than every one
in progress (R60(b), R234). -/
theorem runEvent_order (enabled : s.enabled ev = true) (e : runEvent ev s = .next t) : t.order.Sublist s.order ∨
    ∃ g, t.order = s.order ++ [g] ∧ ∀ h ∈ s.order, s.prio g < s.prio h := by
  have kept (same : t.order = s.order) : t.order.Sublist s.order := same ▸ List.Sublist.refl _
  cases ev with
  | app =>
    refine .inl (kept ?_)
    cases busy : s.busy with
    | true => exact commandStep_order (by simpa [runEvent, busy] using e)
    | false => exact hostStep_order (by simpa [runEvent, busy] using e)
  | port => exact .inl (kept (hostStep_order e))
  | enter g =>
    obtain ⟨_, _, urgent, _⟩ := (entryEnabled_iff s g).1 enabled
    cases exec_handler_orderStep e with
    | later h => exact .inl h
    | enters _ h => exact .inr ⟨g, h, by simpa [State.order] using urgent⟩
  | resume g =>
    obtain ⟨active, _⟩ := (resumeEnabled_iff s g).1 enabled
    cases exec_handler_orderStep e with
    | later h => exact .inl h
    | enters inactive _ => simp [active] at inactive
  | complete b =>
    cases e
    exact .inl (kept (ite_order rfl rfl))
  | arrive b =>
    cases e
    obtain ⟨l, set, _⟩ := busArrive_blockSet s b
    exact .inl (kept (order_of_active set.active))

/-! ## Nesting (R270) -/

/-- Nesting holds on where handlers leave, and where one more urgent than all others enters. -/
theorem State.NestingOk.of_order (nested : s.NestingOk) (cfg : t.cfg = s.cfg) (step : t.order.Sublist s.order ∨
    ∃ g, t.order = s.order ++ [g] ∧ ∀ h ∈ s.order, s.prio g < s.prio h) : t.NestingOk := by
  rw [nestingOk_iff] at nested ⊢
  simp only [prio_eq_of_cfg cfg]
  rcases step with left | ⟨g, entered, urgent⟩
  · exact nested.sublist left
  · show t.order.Pairwise _
    rw [entered]
    refine List.pairwise_append.2 ⟨nested, List.pairwise_singleton .., fun h old x new => ?_⟩
    obtain rfl := List.mem_singleton.1 new
    exact urgent h old

theorem step_nestingOk (nested : s.NestingOk) (e : step s = .next t) : t.NestingOk := by
  obtain ⟨_, w, _⟩ := step_writes e
  have chosen : s.afterChoice.NestingOk := by
    unfold State.afterChoice
    split <;> exact nested
  rcases step_cases s with ⟨_, h⟩ | ⟨_, enabled, h⟩ | ⟨_, _, h⟩ <;> rw [h] at e
  · cases e
  · exact chosen.of_order w.cfg_eq (runEvent_order enabled e)
  · cases e
    exact chosen

/-- Where nesting holds, an active handler that no active one precedes in priority is the last entered. -/
theorem State.NestingOk.last_of_least (nested : s.NestingOk) (active : s.isActive g = true)
    (least : ∀ r ∈ s.active, s.prio g ≤ s.prio r.handler) : ∃ rest r, s.active = rest ++ [r] ∧ r.handler = g := by
  obtain ⟨x, present, rfl⟩ := List.mem_map.1 ((isActive_iff_mem s g).1 active)
  obtain none | ⟨rest, r, last⟩ := s.active.eq_nil_or_concat'
  · simp [none] at present
  · rw [State.NestingOk, last, List.pairwise_append] at nested
    rw [last] at present
    obtain ⟨_, _, urgent⟩ := nested
    rcases List.mem_append.1 present with older | newest
    · have less := urgent x older r (List.mem_singleton_self r)
      have more := least r (by simp [last])
      omega
    · exact ⟨rest, r, last, congrArg Running.handler (List.mem_singleton.1 newest).symm⟩

end Machine

open Machine

/-- Settles O58: a step keeps the order of entry but for handlers that leave, or enters one more urgent than all
(`runEvent_order`); and only the last entered has the least number. -/
theorem stepKeepsNesting : Obligations.StepKeepsNesting := by
  refine ⟨fun s t => step_nestingOk, fun s nested => ⟨?_, fun h enabled => ?_⟩⟩
  · exact List.pairwise_map.2 (nested.imp Nat.ne_of_gt)
  · obtain ⟨active, _, least⟩ := (resumeEnabled_iff s h).1 enabled
    exact nested.last_of_least active least

end Sys2Proof
end

section
/-!
SUPPORT. The first step of a command (spec/60_exceptions.md R260, R262): it goes on, it ends `OK`, it ends with another status and
no other effect, or it is `ERR_HW` of `BEGIN` or `SET_BAUDRATE`.
-/

namespace Sys2Proof
namespace Machine

variable {s t u : State} {i : Instr} {d k b : Nat} {y : BlockState}

/-- What the first step of command `i` can answer. -/
inductive State.FirstStep (s : State) (i : Instr) : State → Prop
  | goes {p : Pos} : s.FirstStep i (s.goto .app p)
  | succeeds {u : State} {l : List Word} : s.FirstStep i (u.finish .ok l)
  | fails {c : StatusCode} : s.FirstStep i (s.finish c [])
  | hardware {u : State} (own : i = .devBegin i.deviceOf ∨ i = .setBaudrate i.deviceOf) (flt : u.flt = s.flt)
      (active : u.active = s.active) (faults : u.faults = s.faults) (st : ∀ e, (u.device e).st = (s.device e).st) :
      s.FirstStep i (u.finish .errHw [])

theorem State.BlockSet.faults (h : s.BlockSet t b y) : t.faults = s.faults := by simpa using congrArg State.faults h.frame

namespace State.FirstStep

/-! ## The checks -/

protected theorem ite {c : Prop} [Decidable c] (h : s.FirstStep i t) (g : s.FirstStep i u) :
    s.FirstStep i (if c then t else u) := by
  split
  · exact h
  · exact g

theorem onDevice (h : s.FirstStep i t) : s.FirstStep i (onDevice d s t) := .ite h fails

theorem whenRunning (h : s.FirstStep i t) : s.FirstStep i (whenRunning d s t) := .onDevice (.ite h fails)

theorem pre (h : s.FirstStep i t) : s.FirstStep i (pre d k s t) := .whenRunning (.ite h fails)

theorem of_single (h : s.FirstStep i u) (e : single s u = .next t) : s.FirstStep i t := (single_eq_next.1 e).2 ▸ h

/-- A check and what follows it, as the whole first step. -/
theorem of_next (h : s.FirstStep i u) (e : (.next u : Result) = .next t) : s.FirstStep i t := by
  cases e
  exact h

/-! ## `ERR_HW` (R193, R194) -/

/-- `BEGIN` where `hw_init` fails has written the block's entry alone. -/
theorem devBegin (e : execDevBegin d s = .next t) : s.FirstStep (.devBegin d) t := by
  refine .of_single (.onDevice (.ite fails ?_)) e
  rw [beginSetup_eq]
  dsimp only
  split
  · exact fails
  · split
    case h_1 init =>
      obtain ⟨y, set⟩ := hwInit_blockSet init
      exact hardware (.inl rfl) set.flt set.active set.faults fun e => by rw [set.device]
    case h_2 => exact succeeds

/-- A failed `SET_BAUDRATE` has written the block's entry and the timing of its device. -/
theorem reprogram (timing baud : Word) : s.FirstStep (.setBaudrate d) (s.reprogram d timing baud) := by
  obtain ⟨v, y, set, w, w', valid, e | e⟩ := reprogram_ends_or_fails s d timing baud <;> rw [e]
  · exact succeeds
  · refine hardware (.inr rfl) set.flt set.active set.faults fun e => ?_
    rw [← set.device (d := e)]
    rcases device_setDevice_cases v d { v.device d with timing := w, baud := w', baudValid := valid } e with
      same | ⟨rfl, written⟩
    · rw [same]
    · rw [written]

end State.FirstStep

open State.FirstStep (goes succeeds fails)

/-! ## Every command -/

theorem exec_firstStep (command : i.format ≠ .irq) (start : s.pos = .start) (e : exec i s = .next t) : s.FirstStep i t := by
  cases i with
  | rbIsEmpty d ring | rbIsFull d ring | rbCount d ring | peek d | read d =>
    simp only [exec, execRbIsEmpty, execRbIsFull, execRbCount, execPeek, execRead, start] at e
    exact .of_next (.whenRunning goes) e
  | rbPush d ring =>
    simp only [exec, execRbPush, start] at e
    exact .of_next (.whenRunning (.ite fails (.ite goes fails))) e
  | rbPeek d ring | rbPop d ring =>
    simp only [exec, execRbPeek, execRbPop, start] at e
    exact .of_next (.whenRunning (.ite fails goes)) e
  | write d =>
    simp only [exec, execWrite, start] at e
    exact .of_next (.whenRunning (.ite goes fails)) e
  | btSolve =>
    refine .of_single ?_ e
    split
    · exact fails
    · exact succeeds
  | fltConfigure d k => exact .of_single (.pre (.ite fails succeeds)) e
  | fltMask32Std d k | fltMask32Ext d k | fltMask16 d k | fltEnable d k => exact .of_single (.pre (.ite succeeds fails)) e
  | fltList32Std d k | fltList32Ext d k | fltList16 d k =>
    exact .of_single (.pre (.ite (.ite fails succeeds) fails)) e
  | fltAcceptAll d => exact .of_single (.whenRunning (.ite fails (.ite fails succeeds))) e
  | fltDisable d k | fltRead d k => exact .of_single (.pre succeeds) e
  | devOpen d => exact .of_single (.onDevice (.ite fails (.ite fails succeeds))) e
  | devBegin d => exact .devBegin e
  | setBaudrate d =>
    refine .of_single (.whenRunning ?_) e
    split
    · exact fails
    · exact .reprogram ..
  | devClose d => exact .of_single (.onDevice (.ite fails succeeds)) e
  | fltClearAll d | availableForWrite d | available d | getError d => exact .of_single (.whenRunning succeeds) e
  | irqRx d | irqTx d => exact absurd rfl command

end Machine

open Machine

/-- Settles O51: of the outcomes of a first step (`exec_firstStep`) only a failure ends it with a status other than `OK`. -/
theorem failuresChangeNothing : Obligations.FailuresChangeNothing := by
  intro i s t command start e ended failed
  cases exec_firstStep command start e with
  | goes => cases ended
  | succeeds => exact absurd rfl failed
  | fails => exact .inl rfl
  | hardware own flt active faults st => exact .inr ⟨rfl, own, flt, active, faults, st⟩

end Sys2Proof
end

section
/-!
SUPPORT. Forbidden host accesses (spec/20_memory.md R52, spec/60_exceptions.md R267): what `fault` records and leaves, and which
loads and stores have no register.
-/

namespace Sys2Proof
namespace Machine

variable {s : State} {a : PortAccess} {off : Nat}

/-! ## `fault` (R265) -/

theorem mem_raise_self (s : State) (g : Agent) (f : ModelFault) : ⟨f, g⟩ ∈ (s.raise g f).faults := by
  unfold State.raise
  split
  · assumption
  · simp

theorem faults_subset_raise (s : State) (g : Agent) (f : ModelFault) : s.faults ⊆ (s.raise g f).faults := by
  unfold State.raise
  split <;> simp

theorem raise_frame (s : State) (g : Agent) (f : ModelFault) : { s.raise g f with faults := s.faults } = s := by
  unfold State.raise
  split <;> rfl

theorem stopped_raise (s : State) (g : Agent) (f : ModelFault) : (s.raise g f).stopped g = true :=
  List.any_eq_true.2 ⟨_, mem_raise_self s g f, decide_eq_true rfl⟩

/-! ## Accesses with no register -/

theorem portWrite_eq_none_iff {v : Word} :
    s.portWrite off v = none ↔ s.cur ≠ none ∨ (off ≠ 0 ∧ ¬ (0x10 ≤ off ∧ off < 0x30)) := by
  rw [← busy_iff, State.portWrite]
  cases s.busy with
  | true => simp
  | false =>
    rw [if_neg (by decide)]
    split
    · simp [*]
    · split <;> simp [*]

theorem portRead_eq_none_iff : s.portRead off = none ↔
    off ≠ 0 ∧ off ≠ 4 ∧ ¬ (0x10 ≤ off ∧ off < 0x30) ∧ (0x30 ≤ off ∧ off < 0x50 → s.cur ≠ none) := by
  rw [← busy_iff, State.portRead]
  split
  · simp [*]
  split
  · simp [*]
  split
  · simp [*]
  split
  · cases s.busy <;> simp [*]
  · simp [*]

/-- An access in the window that is no aligned word, or that its direction has no register for, is `F_PORT`. -/
theorem portAccess_of_forbidden (addr : a.addr = s.cfg.canqBase + off) (inside : off < 0x100)
    (forbidden : a.width ≠ 32 ∨ off % 4 ≠ 0 ∨ (a.write = true ∧ s.portWrite off a.value = none) ∨
      (a.write = false ∧ s.portRead off = none)) :
    portAccess a s = .next (s.raise .app (.port a.addr a.width)) := by
  have window : ¬ (a.addr < s.cfg.canqBase ∨ s.cfg.canqBase + 0x100 ≤ a.addr) := by omega
  have offset : a.addr - s.cfg.canqBase = off := by omega
  rw [portAccess, if_neg window]
  simp only [offset]
  rcases forbidden with width | aligned | ⟨store, none⟩ | ⟨load, none⟩
  · rw [if_pos (.inl width)]
  · rw [if_pos (.inr aligned)]
  · simp [store, none]
  · simp [load, none]

end Machine

open Machine

/-- Settles O6: each access of R52's list is one of `portAccess_of_forbidden`, and the fault it records stops `APP`
(`faultsAreForever`). -/
theorem portFaults : Obligations.PortFaults := by
  intro s a off addr inside forbidden
  refine ⟨_, portAccess_of_forbidden addr inside ?_, mem_raise_self .., faults_subset_raise s _ _, raise_frame ..,
    (faultsAreForever.2 _).1 (stopped_raise ..)⟩
  rw [portWrite_eq_none_iff, portRead_eq_none_iff]
  obtain width | aligned | register := forbidden
  · exact .inl width
  · exact .inr (.inl aligned)
  · cases write : a.write with
    | true =>
      refine .inr (.inr (.inl ⟨rfl, or_iff_not_imp_left.2 fun idle => ?_⟩))
      simp [write, not_not.1 idle] at register
      omega
    | false =>
      refine .inr (.inr (.inr ⟨rfl, ?_⟩))
      by_cases idle : s.cur = none <;> simp [write, idle] at register ⊢ <;> omega

end Sys2Proof
end
